-- ==== Sys2Proof/Word.lean ====
section
/-!
DEFINITION. The values the other files speak of: bytes, pin levels, segments, waveforms (spec/00_scope.md R14, R17).
-/

namespace Sys2Proof

/-- An 8-bit value: a port `req_command`, `req_device` or a register `CMD`, `DEV` (10_state.md R21, R22, R34). -/
abbrev Byte := BitVec 8

/-- A level of the output pin (10_state.md R27): `high` is 1, emitter active; `low` is 0, quiet (92_eei_decisions.md D8). -/
inductive Level where
  | low
  | high
deriving DecidableEq, Repr

/-- A segment `(level, duration)`, the duration in microseconds, that is in ticks (00_scope.md R16, R17). -/
structure Segment where
  level : Level
  ticks : Nat
deriving DecidableEq, Repr

/-- A waveform: a finite list of segments (00_scope.md R17). -/
abbrev Waveform := List Segment

end Sys2Proof
end

