-- ==== Sys2Proof/Config.lean ====
section
/-!
DEFINITION. What an implementation fixes (spec/00_scope.md R10 to R12, 10_state.md R32, R33): the protocol profile,
the open gap length and the range policy.
-/

namespace Sys2Proof

/-- The hardwired constants P0 to P7 with the widths of 10_state.md R32. -/
structure Profile where
  /-- P0 `T_HIGH`: ticks the pin is high in one carrier cycle. -/
  tHigh : BitVec 10
  /-- P1 `T_LOW`: ticks the pin is low in one carrier cycle. -/
  tLow : BitVec 10
  /-- P2 `N_START`: carrier cycles of the start burst. -/
  nStart : BitVec 7
  /-- P3 `N_ONE`: carrier cycles of the burst of a 1 bit. -/
  nOne : BitVec 7
  /-- P4 `N_ZERO`: carrier cycles of the burst of a 0 bit. -/
  nZero : BitVec 7
  /-- P5 `T_SPACE`: ticks of the inter-symbol space. -/
  tSpace : BitVec 10
  /-- P6 `W_CMD`: width of the command field, bits. -/
  wCmd : BitVec 4
  /-- P7 `W_DEV`: width of the device field, bits. -/
  wDev : BitVec 4
deriving DecidableEq, Repr

/-- The profile `SIRC12` (00_scope.md R10, 10_state.md R32). -/
def sirc12 : Profile where
  tHigh := 12#10
  tLow := 13#10
  nStart := 96#7
  nOne := 48#7
  nZero := 24#7
  tSpace := 600#10
  wCmd := 7#4
  wDev := 5#4

/-- `W_REG`: width of the registers that hold device and command (00_scope.md R10). -/
abbrev wReg : Nat := 8

/-- `W_CMD + W_DEV`: the data bits of a frame, which is the index of its last symbol (43_transmit.md R180). -/
def Profile.lastSym (p : Profile) : Nat := p.wCmd.toNat + p.wDev.toNat

/-- `N_SYM`: symbols of a frame, `1 + W_CMD + W_DEV` (00_scope.md R10). -/
def Profile.nSym (p : Profile) : Nat := 1 + p.lastSym

/-- The profile invariants of 00_scope.md R11. -/
def Profile.valid (p : Profile) : Bool :=
  decide (p.nZero < p.nOne) && decide (0#7 < p.nZero) && decide (0#7 < p.nStart)
    && decide (0#10 < p.tHigh) && decide (0#10 < p.tLow) && decide (0#10 < p.tSpace)
    && decide (p.wCmd.toNat ≤ wReg) && decide (p.wDev.toNat ≤ wReg)

/-- The 4 bits of register `SYM` (10_state.md R25) hold the index of every symbol. DEDUCED (log 3): R11 alone would allow two
fields of 8 bits, whose 17th symbol `SYM` cannot count. -/
def Profile.indexable (p : Profile) : Bool := decide (p.lastSym < 2 ^ 4)

/-- `RANGE_POLICY` (10_state.md R33): 0 = `REJECT`, 1 = `TRUNCATE`. -/
inductive RangePolicy where
  | reject
  | truncate
deriving DecidableEq, Repr

/-- The configuration record of the step function: all the constants of 10_state.md R32 and R33. It "carries the invariants as
proofs" (93_implementation_defined.md I6): a profile that violates 00_scope.md R11 is in no configuration. -/
structure Config where
  profile : Profile
  /-- `GAP_US`: the inter-frame quiet period in ticks, 0 allowed (92_eei_decisions.md D5). -/
  gapUs : Nat
  rangePolicy : RangePolicy
  /-- `TICK`: the period of the clock in microseconds; "the model ... simply counts ticks" (70_reset_and_hazards.md R236), and
  only the time in microseconds is read from it. -/
  tickUs : Nat
  valid : profile.valid = true
  indexable : profile.indexable = true
deriving DecidableEq, Repr

/-- `GAP_US` of the hardware at hand. The spec leaves it OPEN (92_eei_decisions.md D5), so it has no body here and
nothing can be proved about its value. DESIGN CHOICE (log 4): how the open parameter is represented. -/
opaque hardwareGapUs : Nat

/-- The hardware of this row: `SIRC12`, `GAP_US` open, `RANGE_POLICY = REJECT`, `TICK` 1 µs (00_scope.md R10, R12). -/
def hardware : Config where
  profile := sirc12
  gapUs := hardwareGapUs
  rangePolicy := .reject
  tickUs := 1
  valid := by decide
  indexable := by decide

/-- `T_CYCLE = T_HIGH + T_LOW`: one carrier cycle in ticks (00_scope.md R10). -/
def Profile.tCycle (p : Profile) : Nat := p.tHigh.toNat + p.tLow.toNat

/-- `F_CARRIER` in Hz, `1 000 000 / T_CYCLE` (00_scope.md R10). No rule uses it. DESIGN CHOICE (log 19): where `T_CYCLE` does not
divide 1 000 000, which R10 gives no rounding for, it is rounded down; `SIRC12`'s 40 000 is exact. -/
def Profile.fCarrier (p : Profile) : Nat := 1000000 / p.tCycle

/-- `DUTY = T_HIGH / T_CYCLE` as a pair numerator, denominator (00_scope.md R10, 40_carrier.md R112). No rule uses it. -/
def Profile.duty (p : Profile) : Nat × Nat := (p.tHigh.toNat, p.tCycle)

/-- `bitlen(v)`: the least `n` with `v < 2^n` (00_scope.md R14). -/
def bitlen (v : Nat) : Nat := if v = 0 then 0 else Nat.log2 v + 1

/-- `W_T`: the width of `TCNT`, `max(10, bitlen(GAP_US))` (00_scope.md R12). -/
def Config.wT (c : Config) : Nat := max 10 (bitlen c.gapUs)

end Sys2Proof
end

