-- ==== Sys2Proof/Syntax.lean ====
section
/-!
DEFINITION. The operations of the block, one constructor per row of spec/opcode_table.json (00_scope.md R4, 30_encoding.md R80, R86).
Operands in the order of R86: device first, command second.
-/

namespace Sys2Proof

/-- The formats of spec/opcode_table.json: the four of 30_encoding.md R70, `MACRO` (no bit pattern of its own) and `HOST` (R80). -/
inductive Format where
  | req16
  | sym17
  | phase3
  | wire13
  | written
  | host
deriving DecidableEq, Repr

inductive Instr where
  /-- `TX d, c`: a legal request (43_transmit.md R172). -/
  | tx (device command : Byte)
  /-- `TX.WIDE d, c`: a request with a value wider than its field (43_transmit.md R173, R174). -/
  | txWide (device command : Byte)
  /-- `SYM.START` (42_frame.md R142). -/
  | symStart
  /-- `SYM.ONE` (41_bit.md R125). -/
  | symOne
  /-- `SYM.ZERO` (41_bit.md R126). -/
  | symZero
  /-- `SYM n, s`: any other symbol (41_bit.md R123, 30_encoding.md R82). -/
  | sym (burst : BitVec 7) (space : BitVec 10)
  /-- `PH.IDLE` (43_transmit.md R177). -/
  | phIdle
  /-- `PH.HIGH` (40_carrier.md R110). -/
  | phHigh
  /-- `PH.LOW` (40_carrier.md R111). -/
  | phLow
  /-- `PH.SPACE` (41_bit.md R122). -/
  | phSpace
  /-- `PH.GAP` (43_transmit.md R176). -/
  | phGap
  /-- `FRAME d, c` (42_frame.md R146). -/
  | frame (device command : Byte)
  /-- `PINW v` (40_carrier.md R101). -/
  | pinw (level : Level)
  /-- `DLY n` (40_carrier.md R102). -/
  | dly (n : Nat)
  /-- `DLYMS n` (40_carrier.md R105). -/
  | dlyms (n : Nat)
  /-- `PULSE` (40_carrier.md R103). -/
  | pulse
  /-- `BURST n` (40_carrier.md R106, R107): `0 <= n <= 127`. -/
  | burst (n : BitVec 7)
  /-- `SPACE` (41_bit.md R121). -/
  | space
  /-- `BIT b` (41_bit.md R124). -/
  | bit (b : Bool)
  /-- `START` (42_frame.md R142). -/
  | start
  /-- `CMDBITS c` (42_frame.md R143). -/
  | cmdBits (command : Byte)
  /-- `DEVBITS d` (42_frame.md R144). -/
  | devBits (device : Byte)
  /-- `GAP` (43_transmit.md R176). -/
  | gap
  /-- `RESET` (43_transmit.md R184). -/
  | reset
deriving DecidableEq, Repr

/-- The format column of spec/opcode_table.json. -/
def Instr.format : Instr → Format
  | .tx _ _ => .req16
  | .txWide _ _ => .req16
  | .symStart => .sym17
  | .symOne => .sym17
  | .symZero => .sym17
  | .sym _ _ => .sym17
  | .phIdle => .phase3
  | .phHigh => .phase3
  | .phLow => .phase3
  | .phSpace => .phase3
  | .phGap => .phase3
  | .frame _ _ => .wire13
  | .pinw _ => .written
  | .dly _ => .written
  | .dlyms _ => .written
  | .pulse => .written
  | .burst _ => .written
  | .space => .written
  | .bit _ => .written
  | .start => .written
  | .cmdBits _ => .written
  | .devBits _ => .written
  | .gap => .written
  | .reset => .host

end Sys2Proof
end

