-- ==== Sys2Proof/WellFormed.lean ====
section
/-!
DEFINITION. Which instructions are well formed: what the opcode table's rows say of their operands.
-/

namespace Sys2Proof

/-- Slots 1 to 7 of a `WIRE13` frame carry the command (30_encoding.md R76). -/
abbrev cmdSlots : Nat := 7

/-- Slots 8 to 12 of a `WIRE13` frame carry the device (30_encoding.md R76). -/
abbrev devSlots : Nat := 5

/-- `device <= 31 and command <= 127` (30_encoding.md R72): the legal pattern of a `REQ16` word. The formats of 30_encoding.md are
those of `SIRC12`, whatever the profile (log 11); the range check of a transfer is `outOfRange`. -/
def legalPair (device command : Byte) : Bool :=
  decide (device.toNat ≤ 31) && decide (command.toNat ≤ 127)

/-- One of the three symbols that have rows of their own, which take precedence over `SYM` (30_encoding.md R74, R80). -/
def namedSymbol (burst : BitVec 7) (space : BitVec 10) : Bool :=
  (burst == 96#7 || burst == 48#7 || burst == 24#7) && space == 600#10

/-- Well-formedness, row by row:
`TX` carries a legal pair and `TX.WIDE` one that is not (R72, R81); `SYM` is none of the named symbols (R80);
`FRAME`'s slots carry 5 device and 7 command bits (R76), so a `FRAME` that an encoding can express has a legal pair;
the other operands are bounded by their types. -/
def Instr.wellFormed : Instr → Bool
  | .tx d c => legalPair d c
  | .txWide d c => !legalPair d c
  | .sym n s => !namedSymbol n s
  | .frame d c => legalPair d c
  | .symStart => true
  | .symOne => true
  | .symZero => true
  | .phIdle => true
  | .phHigh => true
  | .phLow => true
  | .phSpace => true
  | .phGap => true
  | .pinw _ => true
  | .dly _ => true
  | .dlyms _ => true
  | .pulse => true
  | .burst _ => true
  | .space => true
  | .bit _ => true
  | .start => true
  | .cmdBits _ => true
  | .devBits _ => true
  | .gap => true
  | .reset => true

end Sys2Proof
end

