-- ==== Sys2Proof/Decode.lean ====
section
/-!
DEFINITION. The encodings of spec/30_encoding.md: a total decoder that rejects by name, and the encoder.
-/

namespace Sys2Proof

/-- An encoded operation, one constructor per format (30_encoding.md R70, R80). -/
inductive Code where
  /-- `REQ16 = device[7:0] ++ command[7:0]` (R71). -/
  | req16 (w : BitVec 16)
  /-- `SYM17 = burst[6:0] ++ space[9:0]` (R73). -/
  | sym17 (w : BitVec 17)
  /-- `PHASE3` (R75). -/
  | phase3 (w : BitVec 3)
  /-- `WIRE13`: the symbol words of the slots in time order, slot 0 first (R76). -/
  | wire13 (slots : List (BitVec 17))
  /-- A row of format `MACRO`, "no bit pattern of [its] own" (R80): the operation as R86 writes it, mnemonic and operands. -/
  | written (i : Instr)
  /-- The `rst` port at 1 (10_state.md R34): the `HOST` row. -/
  | rst
deriving DecidableEq, Repr

/-- Why an encoding is rejected. -/
inductive Reject where
  /-- `PHASE3` codes 5, 6 and 7: "reserved: ... no behaviour is defined for them" (R83). -/
  | reservedPhase (w : BitVec 3)
  /-- A `WIRE13` list that has not 13 slots (R76). -/
  | slotCount (n : Nat)
  /-- Slot 0 of a `WIRE13` list is not `SYM.START` (R76). -/
  | slotZeroNotStart
  /-- A data slot of a `WIRE13` list is neither `SYM.ONE` nor `SYM.ZERO` (R76). -/
  | slotNotData
  /-- A written operation whose row has a bit pattern, so that it is not of format `MACRO` (R80). -/
  | notOfMacroFormat
deriving DecidableEq, Repr

/-- The words of R74. -/
def startWord : BitVec 17 := 0x18258#17
/-- The word of `SYM.ONE` (R74). -/
def oneWord : BitVec 17 := 0x0C258#17
/-- The word of `SYM.ZERO` (R74). -/
def zeroWord : BitVec 17 := 0x06258#17

/-! ## Bit order inside a field (20_memory.md R51, 30_encoding.md R78) -/

/-- "bit i (0-indexed from least significant) is `(value >> i) & 1`" (30_encoding.md R78). -/
def dataBit (v : Byte) (i : Nat) : Bool := ((v >>> i) &&& 1#8) == 1#8

/-- The value whose bits, least significant first, are the list (the sums of 42_frame.md R155). -/
def bitsValue : List Bool → Nat
  | [] => 0
  | b :: bs => (if b then 1 else 0) + 2 * bitsValue bs

/-- The 12 data bits of a frame in time order: `c[0]..c[6]`, `d[0]..d[4]` (42_frame.md R154). -/
def dataBits (device command : Byte) : List Bool :=
  (List.range cmdSlots).map (dataBit command) ++ (List.range devSlots).map (dataBit device)

/-- `W12 = device[4:0] ++ command[6:0]` (20_memory.md R52, 30_encoding.md R77). -/
def w12 (device command : Byte) : BitVec 12 := device.setWidth 5 ++ command.setWidth 7

/-! ## Decoding -/

/-- `REQ16` (R71, R72, R81): match `0x0000` under mask `0xE080` is `TX`, anything else `TX.WIDE`. -/
def decodeReq (w : BitVec 16) : Instr :=
  if w &&& 0xE080#16 = 0#16 then .tx (w.extractLsb' 8 8) (w.extractLsb' 0 8)
  else .txWide (w.extractLsb' 8 8) (w.extractLsb' 0 8)

/-- `SYM17` (R73, R74): the three named symbols take precedence (R80). -/
def decodeSym (w : BitVec 17) : Instr :=
  if w = startWord then .symStart
  else if w = oneWord then .symOne
  else if w = zeroWord then .symZero
  else .sym (w.extractLsb' 10 7) (w.extractLsb' 0 10)

/-- `PHASE3` (R75, R83). -/
def decodePhase (w : BitVec 3) : Except Reject Instr :=
  if w = 0b000#3 then .ok .phIdle
  else if w = 0b001#3 then .ok .phHigh
  else if w = 0b010#3 then .ok .phLow
  else if w = 0b011#3 then .ok .phSpace
  else if w = 0b100#3 then .ok .phGap
  else .error (.reservedPhase w)

/-- The data bit a slot word carries (R74): 1 for `SYM.ONE`, 0 for `SYM.ZERO`. -/
def slotBit (w : BitVec 17) : Option Bool :=
  if w = oneWord then some true else if w = zeroWord then some false else none

/-- The data bits of a list of slots, none when some slot carries no bit. -/
def slotBits : List (BitVec 17) → Option (List Bool)
  | [] => some []
  | w :: ws =>
    match slotBit w, slotBits ws with
    | some b, some bs => some (b :: bs)
    | _, _ => none

/-- `WIRE13` (R76): slot 0 is `SYM.START`, slots 1 to 7 carry the command, slots 8 to 12 the device, LSB first.
DESIGN CHOICE (log 11): the slots are spelled with the words of R74, and are 13, whatever the profile; the `FRAME` that results is
emitted with the profile's own bursts, spaces and widths. -/
def decodeWire (slots : List (BitVec 17)) : Except Reject Instr :=
  match slots with
  | [] => .error (.slotCount 0)
  | s :: data =>
    if data.length ≠ cmdSlots + devSlots then .error (.slotCount (data.length + 1))
    else if s ≠ startWord then .error .slotZeroNotStart
    else
      match slotBits data with
      | none => .error .slotNotData
      | some bits =>
        .ok (.frame (BitVec.ofNat 8 (bitsValue (bits.drop cmdSlots))) (BitVec.ofNat 8 (bitsValue (bits.take cmdSlots))))

/-- The decoder: total, rejecting by name. -/
def decode : Code → Except Reject Instr
  | .req16 w => .ok (decodeReq w)
  | .sym17 w => .ok (decodeSym w)
  | .phase3 w => decodePhase w
  | .wire13 slots => decodeWire slots
  | .written i => if i.format = .written then .ok i else .error .notOfMacroFormat
  | .rst => .ok .reset

/-! ## Encoding -/

/-- `REQ16 = device ++ command` (R71). -/
def encodeReq (device command : Byte) : BitVec 16 := device ++ command

/-- `SYM17 = burst ++ space` (R73). -/
def encodeSym (burst : BitVec 7) (space : BitVec 10) : BitVec 17 := burst ++ space

/-- The slot word of a data bit (R74, R76). -/
def slotWord (b : Bool) : BitVec 17 := if b then oneWord else zeroWord

/-- The 13 slots of a frame (R76). -/
def encodeFrame (device command : Byte) : List (BitVec 17) :=
  startWord :: (dataBits device command).map slotWord

/-- The encoding of an instruction in the format its row has. -/
def encode : Instr → Code
  | .tx d c => .req16 (encodeReq d c)
  | .txWide d c => .req16 (encodeReq d c)
  | .symStart => .sym17 startWord
  | .symOne => .sym17 oneWord
  | .symZero => .sym17 zeroWord
  | .sym n s => .sym17 (encodeSym n s)
  | .phIdle => .phase3 0b000#3
  | .phHigh => .phase3 0b001#3
  | .phLow => .phase3 0b010#3
  | .phSpace => .phase3 0b011#3
  | .phGap => .phase3 0b100#3
  | .frame d c => .wire13 (encodeFrame d c)
  | .pinw v => .written (.pinw v)
  | .dly n => .written (.dly n)
  | .dlyms n => .written (.dlyms n)
  | .pulse => .written .pulse
  | .burst n => .written (.burst n)
  | .space => .written .space
  | .bit b => .written (.bit b)
  | .start => .written .start
  | .cmdBits c => .written (.cmdBits c)
  | .devBits d => .written (.devBits d)
  | .gap => .written .gap
  | .reset => .rst

/-- The format a code is in. -/
def Code.format : Code → Format
  | .req16 _ => .req16
  | .sym17 _ => .sym17
  | .phase3 _ => .phase3
  | .wire13 _ => .wire13
  | .written _ => .written
  | .rst => .host

/-! ## The opcode table's words -/

/-- The code that a table row's bits spell, by their number in whole bytes: 8 for `PHASE3`, 16 for `REQ16`, 24 for `SYM17`
(the format's own 3 and 17 are read alike). Bits above a format's width must be 0. `WIRE13` is "not a binary word"
(the table's note) and the `MACRO` and `HOST` rows have no bits: they have no number. DESIGN CHOICE (log 12). -/
def tableCode (nbits w : Nat) : Option Code :=
  if nbits = 8 ∨ nbits = 3 then
    if w < 2 ^ 3 then some (.phase3 (BitVec.ofNat 3 w)) else none
  else if nbits = 16 then
    if w < 2 ^ 16 then some (.req16 (BitVec.ofNat 16 w)) else none
  else if nbits = 24 ∨ nbits = 17 then
    if w < 2 ^ 17 then some (.sym17 (BitVec.ofNat 17 w)) else none
  else none

/-- The instruction the decoder reads from a row's bits. -/
def decodeTableWord (nbits w : Nat) : Option Instr :=
  match tableCode nbits w with
  | none => none
  | some c =>
    match decode c with
    | .ok i => some i
    | .error _ => none

end Sys2Proof
end

