-- ==== Sys2Proof/Machine/State.lean ====
section
/-!
DEFINITION. The state of the block (spec/10_state.md), what the host does to it, how a step can stop, and the reset state.
-/

namespace Sys2Proof.Machine

/-- Register `PHASE` (10_state.md R24). Codes 5, 6, 7 are "unrepresentable (a five-constructor type)" (30_encoding.md R83). -/
inductive Phase where
  | idle
  | high
  | low
  | space
  | gap
deriving DecidableEq, Repr

/-- The values of the input ports in one tick: `in_n = (rst, req_valid, req_command, req_device)` (10_state.md R34, R35). -/
structure Ports where
  rst : Bool
  reqValid : Bool
  reqCommand : Byte
  reqDevice : Byte
deriving DecidableEq, Repr

/-- What the host does next. `ports` is the hardware's own interface. The other three are the MODEL's own (DESIGN CHOICE,
log 1): an operation of the opcode table that no port can carry, called directly as D00's contract calls it. -/
inductive HostAction where
  /-- One tick with these values on the input ports. -/
  | ports (p : Ports)
  /-- A `SYM17` word to realise (30_encoding.md R73, 41_bit.md R123). -/
  | symbol (w : BitVec 17)
  /-- The 13 slots of a `WIRE13` frame to realise (30_encoding.md R76, 42_frame.md R146). -/
  | wire (slots : List (BitVec 17))
  /-- An operation of format `MACRO`, written as 30_encoding.md R86 writes it. -/
  | call (i : Instr)
deriving DecidableEq, Repr

/-- The machine never stops with a fault: "The block never halts" (43_transmit.md R187). `OutOfRange` is a next state with
`ERR = 1` (60_exceptions.md R202), not a fault of this type (log 10). -/
inductive Fault where
deriving DecidableEq, Repr

/-- Why a step has no meaning. -/
inductive Refusal where
  /-- Raised by `exec` for an instruction that has no meaning yet. Safe: nothing is claimed of it. -/
  | notModelled (mnemonic : String)
  /-- Raised by `step` when the decoder rejects what it fetched: the encoding has no meaning in the spec
  (30_encoding.md R76, R80, R83). Only a directly called operation can be rejected. Safe. -/
  | undecodable (why : Reject)
deriving DecidableEq, Repr

/-- The state. The first eight fields are the spec's `S` (10_state.md); the last three are the model's own. -/
structure State where
  /-- `PHASE` (R24). -/
  phase : Phase
  /-- `SYM` (R25): 4 bits; that it is at most `W_CMD + W_DEV` = 12 is an invariant (93_implementation_defined.md I5; log 9). -/
  sym : BitVec 4
  /-- `PCNT` (R28). -/
  pcnt : BitVec 7
  /-- `TCNT` (R30); an unbounded natural, as 92_eei_decisions.md D7 permits (log 8). -/
  tcnt : Nat
  /-- `CMD` (R21). -/
  cmd : Byte
  /-- `DEV` (R22). -/
  dev : Byte
  /-- `ERR` (R26). -/
  err : Bool
  /-- `PIN` (R27). -/
  pin : Level
  /-- The configuration of R32 and R33, which nothing writes. MODEL's own place for it (log 3). -/
  cfg : Config
  /-- What the host does in the coming ticks, next first; when it is empty the ports are quiet. MODEL's own (log 5). -/
  script : List HostAction
  /-- The level of `ir_out` in every tick so far, normal form (00_scope.md R17), newest segment FIRST.
  MODEL's own record of the block's one effect on the world (20_memory.md R57, log 2); no operation reads it. -/
  pinLog : Waveform
deriving DecidableEq, Repr

/-- `S_reset` with the hardware's configuration, before the first tick (10_state.md R37, 70_reset_and_hazards.md R231, R234). -/
def State.reset : State where
  phase := .idle
  sym := 0#4
  pcnt := 0#7
  tcnt := 0
  cmd := 0#8
  dev := 0#8
  err := false
  pin := .low
  cfg := hardware
  script := []
  pinLog := []

end Sys2Proof.Machine
end

