-- ==== Sys2Proof/Machine/Flags.lean ====
section
/-!
DEFINITION. The one flag `ERR` and the status functions of `PHASE` (spec/10_state.md R26), and the range check that
decides `ERR` (spec/60_exceptions.md R201).
-/

namespace Sys2Proof.Machine

/-- `req_command > 2^W_CMD - 1 or req_device > 2^W_DEV - 1`, on the full 8-bit values (60_exceptions.md R201). -/
def outOfRange (p : Profile) (device command : Byte) : Bool :=
  decide (command.toNat > 2 ^ p.wCmd.toNat - 1) || decide (device.toNat > 2 ^ p.wDev.toNat - 1)

/-- `READY = (PHASE == IDLE)` (10_state.md R26). -/
def State.readyFlag (s : State) : Bool := s.phase == .idle

/-- `BUSY = not READY` (10_state.md R26). -/
def State.busyFlag (s : State) : Bool := !s.readyFlag

/-- `ERR <- 1` (60_exceptions.md R202). -/
def State.setErr (s : State) : State := { s with err := true }

/-- `ERR <- 0`, by an accepted request (10_state.md R26, 60_exceptions.md R210). -/
def State.clearErr (s : State) : State := { s with err := false }

end Sys2Proof.Machine
end

