-- ==== Sys2Proof/Machine/Waveform.lean ====
section
/-!
DEFINITION. Waveforms (spec/00_scope.md R17) and the waveform each operation has (the `wave(..)` of spec/40_carrier.md,
41_bit.md, 42_frame.md, 43_transmit.md R176).
-/

namespace Sys2Proof.Machine

/-! ## The operators of 00_scope.md R17 -/

/-- `rep(n, w)`: `w` joined `n` times. -/
def rep : Nat → Waveform → Waveform
  | 0, _ => []
  | n + 1, w => w ++ rep n w

/-- `dur(w)`: the sum of the durations. -/
def dur : Waveform → Nat
  | [] => 0
  | g :: w => g.ticks + dur w

/-- Put one segment before a waveform in normal form: dropped if of duration 0, merged if the levels are equal. -/
def joinFront (g : Segment) (w : Waveform) : Waveform :=
  if g.ticks = 0 then w
  else
    match w with
    | [] => [g]
    | h :: r => if h.level = g.level then ⟨g.level, g.ticks + h.ticks⟩ :: r else g :: h :: r

/-- `norm(w)`: no segment of duration 0, no two neighbours of equal level. -/
def normWave : Waveform → Waveform
  | [] => []
  | g :: w => joinFront g (normWave w)

/-- A waveform is in normal form. -/
def isNormal : Waveform → Bool
  | [] => true
  | [g] => g.ticks != 0
  | g :: h :: w => g.ticks != 0 && g.level != h.level && isNormal (h :: w)

/-! ## The record of the pin: normal form, newest segment first -/

/-- The pin is at `l` for `n` more ticks. -/
def pushLevel (l : Level) (n : Nat) (log : Waveform) : Waveform := joinFront ⟨l, n⟩ log

/-- The pin follows `w`, whose first segment comes first in time. -/
def pushWave : Waveform → Waveform → Waveform
  | [], log => log
  | g :: w, log => pushWave w (pushLevel g.level g.ticks log)

/-! ## Counting on a waveform (42_frame.md R152) -/

/-- Ticks at a level. -/
def ticksAt (l : Level) : Waveform → Nat
  | [] => 0
  | g :: w => (if g.level = l then g.ticks else 0) + ticksAt l w

/-- High segments: the rising edges of a waveform in normal form that starts after a low. -/
def highSegments : Waveform → Nat
  | [] => 0
  | g :: w => (if g.level = .high then 1 else 0) + highSegments w

/-- The level of the pin in tick `t` of a waveform, none after its end. -/
def levelAt : Waveform → Nat → Option Level
  | [], _ => none
  | g :: w, t => if t < g.ticks then some g.level else levelAt w (t - g.ticks)

/-! ## What each operation puts on the pin -/

/-- `wave(PULSE) = [(1, T_HIGH), (0, T_LOW)]` (40_carrier.md R103). -/
def wavePulse (p : Profile) : Waveform := [⟨.high, p.tHigh.toNat⟩, ⟨.low, p.tLow.toNat⟩]

/-- `wave(BURST n) = rep(n, [(1, T_HIGH), (0, T_LOW)])` (40_carrier.md R106). -/
def waveBurst (p : Profile) (n : BitVec 7) : Waveform := rep n.toNat (wavePulse p)

/-- `wave(SPACE) = [(0, T_SPACE)]` (41_bit.md R121). -/
def waveSpace (p : Profile) : Waveform := [⟨.low, p.tSpace.toNat⟩]

/-- `wave(SYM n, s) = rep(n, [(1, T_HIGH), (0, T_LOW)]) ++ [(0, s)]` (41_bit.md R123). -/
def waveSym (p : Profile) (n : BitVec 7) (s : BitVec 10) : Waveform := waveBurst p n ++ [⟨.low, s.toNat⟩]

/-- The burst length of a data bit: 1 selects `N_ONE`, 0 selects `N_ZERO` (30_encoding.md R79). -/
def bitBurst (p : Profile) (b : Bool) : BitVec 7 := if b then p.nOne else p.nZero

/-- `wave(BIT b)` (41_bit.md R124). -/
def waveBit (p : Profile) (b : Bool) : Waveform := waveSym p (bitBurst p b) p.tSpace

/-- The waveforms of a list of data bits, one after the other. -/
def waveBits (p : Profile) : List Bool → Waveform
  | [] => []
  | b :: bs => waveBit p b ++ waveBits p bs

/-- `wave(START)` (42_frame.md R142). -/
def waveStart (p : Profile) : Waveform := waveSym p p.nStart p.tSpace

/-- `wave(GAP) = [(0, GAP_US)]` (43_transmit.md R176). -/
def waveGap (c : Config) : Waveform := [⟨.low, c.gapUs⟩]

end Sys2Proof.Machine
end

