-- ==== Sys2Proof/Machine/Operands.lean ====
section
/-!
DEFINITION. Operand assembly: bit extraction and the burst length of a symbol slot (spec/30_encoding.md R78, R79,
42_frame.md R148). The extraction of one bit is `dataBit` of Decode.lean.
-/

namespace Sys2Proof.Machine

/-- The bits of the command field in time order, `c[0]` to `c[W_CMD - 1]` (42_frame.md R143, R154). -/
def cmdFieldBits (p : Profile) (command : Byte) : List Bool := (List.range p.wCmd.toNat).map (dataBit command)

/-- The bits of the device field in time order, `d[0]` to `d[W_DEV - 1]` (42_frame.md R144, R154). -/
def devFieldBits (p : Profile) (device : Byte) : List Bool := (List.range p.wDev.toNat).map (dataBit device)

/-- `databit(s)` of symbol slot `s`, `1 <= s <= W_CMD + W_DEV` (30_encoding.md R78): command bit `s - 1`; after them the device
bits, bit `s - 8` for `W_CMD` = 7. -/
def slotDataBit (p : Profile) (s : Nat) (command device : Byte) : Bool :=
  if s ≤ p.wCmd.toNat then dataBit command (s - 1) else dataBit device (s - (p.wCmd.toNat + 1))

/-- `pulses(SYM, CMD, DEV)` (42_frame.md R148). "It is not defined for `SYM > 12`": what it answers there is never used, since
`beginSymbol` runs only with `SYM <= W_CMD + W_DEV`. -/
def pulses (p : Profile) (s : BitVec 4) (command device : Byte) : BitVec 7 :=
  if s = 0#4 then p.nStart else bitBurst p (slotDataBit p s.toNat command device)

/-- The code of a phase (10_state.md R24, 30_encoding.md R75). -/
def Phase.code : Phase → BitVec 3
  | .idle => 0b000#3
  | .high => 0b001#3
  | .low => 0b010#3
  | .space => 0b011#3
  | .gap => 0b100#3

/-- The port values of a tick in which the host does nothing (30_encoding.md R87). -/
def Ports.quiet : Ports where
  rst := false
  reqValid := false
  reqCommand := 0#8
  reqDevice := 0#8

/-- The port values of a tick in which the host presents the request `(d, c)` (30_encoding.md R87). -/
def Ports.request (device command : Byte) : Ports where
  rst := false
  reqValid := true
  reqCommand := command
  reqDevice := device

/-- The port values of a tick in which the host drives `rst` (43_transmit.md R184). -/
def Ports.reset : Ports where
  rst := true
  reqValid := false
  reqCommand := 0#8
  reqDevice := 0#8

end Sys2Proof.Machine
end

