-- ==== Sys2Proof/Machine/Ops.lean ====
section
/-!
DEFINITION. The operations that the meanings share: the passing of time, the pin, entry to a phase, the start of a symbol,
the exception, the reset.
-/

namespace Sys2Proof.Machine

/-! ## Time and the pin -/

/-- `n` ticks pass with the pin as it is: "during tick `n`, `ir_out = S_n.PIN`" (10_state.md R36). -/
def State.elapse (n : Nat) (s : State) : State := { s with pinLog := pushLevel s.pin n s.pinLog }

/-- `PIN <- v`; no time passes (40_carrier.md R101). -/
def State.writePin (v : Level) (s : State) : State := { s with pin := v }

/-- `DLY n` as a whole: `TCNT` counts down from `n` while `n` ticks pass (40_carrier.md R102, 10_state.md R30).
When all have elapsed, `TCNT`, "the number of ticks of the current segment still to elapse", is 0. DEDUCED (log 7). -/
def State.delay (n : Nat) (s : State) : State := { s.elapse n with tcnt := 0 }

/-! ## Entry to a phase (43_transmit.md R179, R180) -/

/-- `PHASE <- HIGH; PIN <- 1; TCNT <- T_HIGH` (40_carrier.md R110). -/
def State.enterHigh (s : State) : State :=
  { s with phase := .high, pin := .high, tcnt := s.cfg.profile.tHigh.toNat }

/-- `PHASE <- LOW; PIN <- 0; TCNT <- T_LOW` (40_carrier.md R111). -/
def State.enterLow (s : State) : State :=
  { s with phase := .low, pin := .low, tcnt := s.cfg.profile.tLow.toNat }

/-- `PHASE <- SPACE; PIN <- 0; TCNT <- T_SPACE` (41_bit.md R122). -/
def State.enterSpace (s : State) : State :=
  { s with phase := .space, pin := .low, tcnt := s.cfg.profile.tSpace.toNat }

/-- `PHASE <- IDLE; TCNT <- 0`; the pin is not written (43_transmit.md R176). -/
def State.enterIdle (s : State) : State := { s with phase := .idle, tcnt := 0 }

/-- The frame is over: the gap begins, or is skipped if `GAP_US == 0` (43_transmit.md R176, R180). The pin is not written. -/
def State.enterGap (s : State) : State :=
  if s.cfg.gapUs = 0 then s.enterIdle else { s with phase := .gap, tcnt := s.cfg.gapUs }

/-- `TCNT <- TCNT - 1`, applied only where `TCNT > 1` (10_state.md R30, 42_frame.md R157). -/
def State.countDown (s : State) : State := { s with tcnt := s.tcnt - 1 }

/-- `begin_symbol()` (43_transmit.md R179), on the values of `SYM`, `CMD`, `DEV` just written. -/
def State.beginSymbol (s : State) : State :=
  if pulses s.cfg.profile s.sym s.cmd s.dev = 0#7 then s.enterSpace
  else { s.enterHigh with pcnt := pulses s.cfg.profile s.sym s.cmd s.dev }

/-! ## The exception (60_exceptions.md) -/

/-- The complete list of exceptions (60_exceptions.md R200). -/
inductive Exc where
  | outOfRange
deriving DecidableEq, Repr

/-- The code of an exception; it appears on no port, and code 0 means "no exception" (60_exceptions.md R200). -/
def Exc.code : Exc → Nat
  | .outOfRange => 1

/-- `raise`: taking an exception (60_exceptions.md R202, R209). `ERR <- 1` and nothing else: "no state is saved, no mode
changes, no vector is fetched, control goes nowhere". There is no return operation (R210): `ERR` is cleared by the next
accepted request (`State.clearErr` in `State.accept`) or by reset. -/
def State.raise (e : Exc) (s : State) : State :=
  match e with
  | .outOfRange => s.setErr

/-! ## A request (43_transmit.md R171 to R174) -/

/-- An accepted request: `DEV <- d; CMD <- c; ERR <- 0; SYM <- 0; begin_symbol()` (43_transmit.md R172). -/
def State.accept (device command : Byte) (s : State) : State :=
  State.beginSymbol { s.clearErr with dev := device, cmd := command, sym := 0#4 }

/-- A transferred request: refused with `OutOfRange` under `REJECT` if a value is out of range, else accepted
(43_transmit.md R180, the `IDLE` case; R173, R174). -/
def State.transfer (device command : Byte) (s : State) : State :=
  if s.cfg.rangePolicy = .reject ∧ outOfRange s.cfg.profile device command = true then s.raise .outOfRange
  else s.accept device command

/-! ## Reset (43_transmit.md R184) -/

/-- `S <- S_reset` (10_state.md R37): "the constants keep their configured values" (70_reset_and_hazards.md R231), and the
host's script and the record of the pin are not registers of the block. -/
def State.toReset (s : State) : State :=
  { State.reset with cfg := s.cfg, script := s.script, pinLog := s.pinLog }

/-! ## Operations realised as a whole, segment by segment (40_carrier.md, 41_bit.md, 42_frame.md) -/

/-- `PULSE: PINW 1; DLY T_HIGH; PINW 0; DLY T_LOW` (40_carrier.md R103). -/
def State.emitPulse (s : State) : State :=
  (((s.writePin .high).delay s.cfg.profile.tHigh.toNat).writePin .low).delay s.cfg.profile.tLow.toNat

/-- `for j in 1..n: PULSE` (40_carrier.md R106). -/
def State.emitPulses : Nat → State → State
  | 0, s => s
  | n + 1, s => State.emitPulses n s.emitPulse

/-- `BURST n` (40_carrier.md R106): `PCNT` is "set to 0 at the end of the last" cycle (10_state.md R28).
`BURST 0`: "No register is written" (40_carrier.md R107). -/
def State.emitBurst (n : BitVec 7) (s : State) : State :=
  if n = 0#7 then s else { State.emitPulses n.toNat s with pcnt := 0#7 }

/-- `SYM n, s: BURST n; PINW 0; DLY s` (41_bit.md R123). -/
def State.emitSymbol (n : BitVec 7) (space : BitVec 10) (s : State) : State :=
  ((s.emitBurst n).writePin .low).delay space.toNat

/-- `SPACE: PINW 0; DLY T_SPACE` (41_bit.md R121). -/
def State.emitSpace (s : State) : State := (s.writePin .low).delay s.cfg.profile.tSpace.toNat

/-- `BIT b` (41_bit.md R124). -/
def State.emitBit (b : Bool) (s : State) : State :=
  (s.emitBurst (bitBurst s.cfg.profile b)).emitSpace

/-- `START: BURST N_START; SPACE` (42_frame.md R142). -/
def State.emitStart (s : State) : State := (s.emitBurst s.cfg.profile.nStart).emitSpace

/-- Data bits one after the other, the first of them in symbol slot `slot` (42_frame.md R140, R143, R144):
`SYM` is the slot of the bit in progress. -/
def State.emitBits : Nat → List Bool → State → State
  | _, [], s => s
  | slot, b :: bs, s => State.emitBits (slot + 1) bs (State.emitBit b { s with sym := BitVec.ofNat 4 slot })

/-- `CMDBITS c` (42_frame.md R143): wire slots 1 to 7, "LSB transmitted first". -/
def State.emitCmdBits (c : Byte) (s : State) : State :=
  State.emitBits 1 (cmdFieldBits s.cfg.profile c) s

/-- `DEVBITS d` (42_frame.md R144): wire slots 8 to 12, "LSB transmitted first". -/
def State.emitDevBits (d : Byte) (s : State) : State :=
  State.emitBits (1 + s.cfg.profile.wCmd.toNat) (devFieldBits s.cfg.profile d) s

/-- `FRAME d, c: START; CMDBITS c; DEVBITS d` (42_frame.md R146); `SYM = 0` during `START` (R140). -/
def State.emitFrame (d c : Byte) (s : State) : State :=
  ((State.emitStart { s with sym := 0#4 }).emitCmdBits c).emitDevBits d

/-- `GAP` as a whole (43_transmit.md R176): `GAP_US` ticks with the pin not written, then `PHASE <- IDLE; TCNT <- 0`. -/
def State.emitGap (s : State) : State := (s.delay s.cfg.gapUs).enterIdle

end Sys2Proof.Machine
end

