-- ==== Sys2Proof/Machine/Bit.lean ====
section
/-!
DEFINITION. The BitEncoder family (spec/41_bit.md): SPACE, PH.SPACE, SYM, BIT, SYM.ONE, SYM.ZERO.
-/

namespace Sys2Proof.Machine

/-- The `SPACE` case of the step (43_transmit.md R180, 41_bit.md R122): its 12 is `W_CMD + W_DEV`. -/
def State.spaceTick (s : State) : State :=
  if 1 < s.tcnt then s.countDown
  else if s.sym.toNat < s.cfg.profile.lastSym then State.beginSymbol { s with sym := s.sym + 1#4 }
  else s.enterGap

/-- `SPACE` (41_bit.md R121). -/
def execSpace (s : State) : Host.Outcome State Fault Refusal := .next s.emitSpace

/-- `SYM n, s` (41_bit.md R123). -/
def execSym (n : BitVec 7) (space : BitVec 10) (s : State) : Host.Outcome State Fault Refusal :=
  .next (s.emitSymbol n space)

/-- `BIT b` (41_bit.md R124). -/
def execBit (b : Bool) (s : State) : Host.Outcome State Fault Refusal := .next (s.emitBit b)

/-- `SYM.ONE` = `SYM 48, 600` (41_bit.md R125): the burst and the space of its own word (log 11). -/
def execSymOne (s : State) : Host.Outcome State Fault Refusal := .next (s.emitSymbol 48#7 600#10)

/-- `SYM.ZERO` = `SYM 24, 600` (41_bit.md R126): the burst and the space of its own word (log 11). -/
def execSymZero (s : State) : Host.Outcome State Fault Refusal := .next (s.emitSymbol 24#7 600#10)

/-- `PH.SPACE`: one tick of the phase (41_bit.md R122). -/
def execPhSpace (s : State) : Host.Outcome State Fault Refusal := .next (s.elapse 1).spaceTick

end Sys2Proof.Machine
end

