-- ==== Sys2Proof/Machine/Carrier.lean ====
section
/-!
DEFINITION. The CarrierGenerator family (spec/40_carrier.md): PINW, DLY, DLYMS, PULSE, BURST, PH.HIGH, PH.LOW.
-/

namespace Sys2Proof.Machine

/-- The `HIGH` case of the step (43_transmit.md R180, 40_carrier.md R110). -/
def State.highTick (s : State) : State :=
  if 1 < s.tcnt then s.countDown else s.enterLow

/-- The `LOW` case of the step (43_transmit.md R180, 40_carrier.md R111). -/
def State.lowTick (s : State) : State :=
  if 1 < s.tcnt then s.countDown
  else if 1#7 < s.pcnt then { s.enterHigh with pcnt := s.pcnt - 1#7 }
  else { s.enterSpace with pcnt := 0#7 }

/-- `PINW v` (40_carrier.md R101). -/
def execPinw (v : Level) (s : State) : Host.Outcome State Fault Refusal := .next (s.writePin v)

/-- `DLY n` (40_carrier.md R102). -/
def execDly (n : Nat) (s : State) : Host.Outcome State Fault Refusal := .next (s.delay n)

/-- `DLYMS n`: `DLY 1000 * n` (40_carrier.md R105). -/
def execDlyms (n : Nat) (s : State) : Host.Outcome State Fault Refusal := .next (s.delay (1000 * n))

/-- `PULSE` (40_carrier.md R103). -/
def execPulse (s : State) : Host.Outcome State Fault Refusal := .next s.emitPulse

/-- `BURST n` (40_carrier.md R106, R107). -/
def execBurst (n : BitVec 7) (s : State) : Host.Outcome State Fault Refusal := .next (s.emitBurst n)

/-- `PH.HIGH`: one tick of the phase (40_carrier.md R110). DESIGN CHOICE (log 6): one tick, whatever `PHASE` says. -/
def execPhHigh (s : State) : Host.Outcome State Fault Refusal := .next (s.elapse 1).highTick

/-- `PH.LOW`: one tick of the phase (40_carrier.md R111). -/
def execPhLow (s : State) : Host.Outcome State Fault Refusal := .next (s.elapse 1).lowTick

end Sys2Proof.Machine
end

