-- ==== Sys2Proof/Machine/Frame.lean ====
section
/-!
DEFINITION. The FrameEncoder family (spec/42_frame.md): START and SYM.START, CMDBITS, DEVBITS, FRAME.
-/

namespace Sys2Proof.Machine

/-- `SYM.START` = `SYM 96, 600` (42_frame.md R142, 30_encoding.md R74): the burst and the space of its own word (log 11). -/
def execSymStart (s : State) : Host.Outcome State Fault Refusal := .next (s.emitSymbol 96#7 600#10)

/-- `START` (42_frame.md R142). -/
def execStart (s : State) : Host.Outcome State Fault Refusal := .next s.emitStart

/-- `CMDBITS c` (42_frame.md R143). -/
def execCmdBits (c : Byte) (s : State) : Host.Outcome State Fault Refusal := .next (s.emitCmdBits c)

/-- `DEVBITS d` (42_frame.md R144). -/
def execDevBits (d : Byte) (s : State) : Host.Outcome State Fault Refusal := .next (s.emitDevBits d)

/-- `FRAME d, c` (42_frame.md R146). -/
def execFrame (d c : Byte) (s : State) : Host.Outcome State Fault Refusal := .next (s.emitFrame d c)

end Sys2Proof.Machine
end

