-- ==== Sys2Proof/Machine/Transmit.lean ====
section
/-!
DEFINITION. The TransmitDriver family (spec/43_transmit.md): TX, TX.WIDE, GAP, PH.GAP, PH.IDLE, RESET.
-/

namespace Sys2Proof.Machine

/-- The `GAP` case of the step (43_transmit.md R180, R176). -/
def State.gapTick (s : State) : State :=
  if 1 < s.tcnt then s.countDown else s.enterIdle

/-- The case of the phase in progress, in a tick that resets nothing and transfers nothing (43_transmit.md R180). -/
def State.phaseTick (s : State) : State :=
  match s.phase with
  | .idle => s
  | .high => s.highTick
  | .low => s.lowTick
  | .space => s.spaceTick
  | .gap => s.gapTick

/-- A tick in which a request is presented (43_transmit.md R171): transferred if `PHASE == IDLE`; otherwise it "has no effect
at all" (R171, R175) and the tick is that of the phase in progress (log 6). -/
def State.present (device command : Byte) (s : State) : State :=
  if s.phase = .idle then s.transfer device command else s.phaseTick

/-- `TX d, c` (43_transmit.md R172): the tick that presents it. -/
def execTx (d c : Byte) (s : State) : Host.Outcome State Fault Refusal := .next ((s.elapse 1).present d c)

/-- `TX.WIDE d, c` (43_transmit.md R173, R174): the tick that presents it. -/
def execTxWide (d c : Byte) (s : State) : Host.Outcome State Fault Refusal := .next ((s.elapse 1).present d c)

/-- `GAP` (43_transmit.md R176). -/
def execGap (s : State) : Host.Outcome State Fault Refusal := .next s.emitGap

/-- `PH.GAP`: one tick of the phase (43_transmit.md R176). -/
def execPhGap (s : State) : Host.Outcome State Fault Refusal := .next (s.elapse 1).gapTick

/-- `PH.IDLE`: one tick of the phase with no request transferred: "nothing changes" (43_transmit.md R177). -/
def execPhIdle (s : State) : Host.Outcome State Fault Refusal := .next (s.elapse 1)

/-- `RESET`: a tick in which the host drives `rst == 1` (43_transmit.md R184); the pin has its old level to the end of the
tick (70_reset_and_hazards.md R233). -/
def execReset (s : State) : Host.Outcome State Fault Refusal := .next (s.elapse 1).toReset

end Sys2Proof.Machine
end

