-- ==== Sys2Proof/Machine/Dispatch.lean ====
section
/-!
DEFINITION. The dispatch: one arm per constructor of Instr.
-/

namespace Sys2Proof.Machine

/-- The meaning of an instruction. -/
def exec (i : Instr) (s : State) : Host.Outcome State Fault Refusal :=
  match i with
  | .tx d c => Sys2Proof.Machine.execTx d c s
  | .txWide d c => Sys2Proof.Machine.execTxWide d c s
  | .symStart => Sys2Proof.Machine.execSymStart s
  | .symOne => Sys2Proof.Machine.execSymOne s
  | .symZero => Sys2Proof.Machine.execSymZero s
  | .sym n w => Sys2Proof.Machine.execSym n w s
  | .phIdle => Sys2Proof.Machine.execPhIdle s
  | .phHigh => Sys2Proof.Machine.execPhHigh s
  | .phLow => Sys2Proof.Machine.execPhLow s
  | .phSpace => Sys2Proof.Machine.execPhSpace s
  | .phGap => Sys2Proof.Machine.execPhGap s
  | .frame d c => Sys2Proof.Machine.execFrame d c s
  | .pinw v => Sys2Proof.Machine.execPinw v s
  | .dly n => Sys2Proof.Machine.execDly n s
  | .dlyms n => Sys2Proof.Machine.execDlyms n s
  | .pulse => Sys2Proof.Machine.execPulse s
  | .burst n => Sys2Proof.Machine.execBurst n s
  | .space => Sys2Proof.Machine.execSpace s
  | .bit b => Sys2Proof.Machine.execBit b s
  | .start => Sys2Proof.Machine.execStart s
  | .cmdBits c => Sys2Proof.Machine.execCmdBits c s
  | .devBits d => Sys2Proof.Machine.execDevBits d s
  | .gap => Sys2Proof.Machine.execGap s
  | .reset => Sys2Proof.Machine.execReset s

end Sys2Proof.Machine
end

