-- ==== Sys2Proof/Machine/Fetch.lean ====
section
/-!
DEFINITION. What a step fetches: the code of the operation of this tick, and what it uses up of the host's script.
-/

namespace Sys2Proof.Machine

/-- The code that the registers and the ports show in this tick, in the order of 60_exceptions.md R208: reset first; then, in
`IDLE`, a presented request; else the phase in progress (43_transmit.md R180, 10_state.md R35). -/
def State.portCode (s : State) (p : Ports) : Code :=
  if p.rst then .rst
  else if s.phase = .idle ∧ p.reqValid = true then .req16 (encodeReq p.reqDevice p.reqCommand)
  else .phase3 s.phase.code

/-- The code of the operation that the next step runs. A directly called operation (the model's own, log 1) is run in `IDLE`
and waits, with quiet ports, while a frame or gap is in progress: "exactly one logical thread of control" (20_memory.md R59). -/
def State.fetch (s : State) : Code :=
  match s.script with
  | [] => s.portCode Ports.quiet
  | .ports p :: _ => s.portCode p
  | .symbol w :: _ => if s.phase = .idle then .sym17 w else s.portCode Ports.quiet
  | .wire slots :: _ => if s.phase = .idle then .wire13 slots else s.portCode Ports.quiet
  | .call i :: _ => if s.phase = .idle then .written i else s.portCode Ports.quiet

/-- The host's script after this step: the port values of the tick, or the operation called, are used up. -/
def State.consume (s : State) : State :=
  match s.script with
  | [] => s
  | .ports _ :: rest => { s with script := rest }
  | .symbol _ :: rest => if s.phase = .idle then { s with script := rest } else s
  | .wire _ :: rest => if s.phase = .idle then { s with script := rest } else s
  | .call _ :: rest => if s.phase = .idle then { s with script := rest } else s

/-- The phase whose code is `w`, none for the reserved codes (30_encoding.md R75, R83). -/
def phaseOfCode (w : BitVec 3) : Option Phase :=
  if w = 0b000#3 then some .idle
  else if w = 0b001#3 then some .high
  else if w = 0b010#3 then some .low
  else if w = 0b011#3 then some .space
  else if w = 0b100#3 then some .gap
  else none

/-- The state in which the next step runs the code `c`, and otherwise as `s`: a `PHASE3` code is put in `PHASE` (which
holds it, R75), a request on the ports, any other operation at the head of the script. A reserved `PHASE3` code cannot be
put anywhere, and the state is left as it is. -/
def State.withCode (s : State) (c : Code) : State :=
  match c with
  | .req16 w =>
    { s with
      phase := .idle
      script := .ports (Ports.request (w.extractLsb' 8 8) (w.extractLsb' 0 8)) :: s.script }
  | .sym17 w => { s with phase := .idle, script := .symbol w :: s.script }
  | .phase3 w =>
    match phaseOfCode w with
    | some p => { s with phase := p, script := .ports Ports.quiet :: s.script }
    | none => s
  | .wire13 slots => { s with phase := .idle, script := .wire slots :: s.script }
  | .written i => { s with phase := .idle, script := .call i :: s.script }
  | .rst => { s with script := .ports Ports.reset :: s.script }

end Sys2Proof.Machine
end

