-- ==== Sys2Proof/Machine/Step.lean ====
section
/-!
DEFINITION. One step: fetch, decode, execute.
-/

namespace Sys2Proof.Machine

/-- One step. With port values at the head of the script (or an empty script) it is one tick, the `step` of
43_transmit.md R180; with a directly called operation there, it is the whole of that operation. -/
def step (s : State) : Host.Outcome State Fault Refusal :=
  match decode s.fetch with
  | .ok i => exec i s.consume
  | .error why => .refused (.undecodable why)

/-- `s` with a table row's bits where the next step fetches (log 13). -/
def State.withFetchWord (s : State) (nbits w : Nat) : State :=
  match tableCode nbits w with
  | some c => s.withCode c
  | none => s

end Sys2Proof.Machine
end

