-- ==== Sys2Proof/Machine/FrameData.lean ====
section
/-!
DEFINITION. The frame as data (spec/42_frame.md R147), its waveform (R143, R144, R146), its counts (R152) and the reference
decoder (R155). These are functions of the description: the hardware holds no frame (spec/10_state.md R29).
-/

namespace Sys2Proof.Machine

/-- A symbol `(n, s)`: burst length in carrier cycles, space in ticks (00_scope.md R18). -/
structure Symbol where
  burst : BitVec 7
  space : BitVec 10
deriving DecidableEq, Repr

/-- `frame_syms(d, c)` (42_frame.md R147). -/
def frameSyms (p : Profile) (d c : Byte) : List Symbol :=
  [⟨p.nStart, p.tSpace⟩]
    ++ (cmdFieldBits p c).map (fun b => ⟨bitBurst p b, p.tSpace⟩)
    ++ (devFieldBits p d).map (fun b => ⟨bitBurst p b, p.tSpace⟩)

/-- "concatenation over `(n, s)` of `wave(SYM n, s)`" (42_frame.md R147). -/
def waveSyms (p : Profile) : List Symbol → Waveform
  | [] => []
  | y :: ys => waveSym p y.burst y.space ++ waveSyms p ys

/-- `wave(CMDBITS c)` (42_frame.md R143). -/
def waveCmdBits (p : Profile) (c : Byte) : Waveform := waveBits p (cmdFieldBits p c)

/-- `wave(DEVBITS d)` (42_frame.md R144). -/
def waveDevBits (p : Profile) (d : Byte) : Waveform := waveBits p (devFieldBits p d)

/-- `wave(FRAME d, c) = wave(START) ++ wave(CMDBITS c) ++ wave(DEVBITS d)` (42_frame.md R146). -/
def waveFrame (p : Profile) (d c : Byte) : Waveform := waveStart p ++ waveCmdBits p c ++ waveDevBits p d

/-! ## Counts (42_frame.md R152) -/

/-- The number of bits of a list that are 1. -/
def onesIn : List Bool → Nat
  | [] => 0
  | b :: bs => (if b then 1 else 0) + onesIn bs

/-- `k = popcount(c[6:0]) + popcount(d[4:0])`: the number of data bits that are 1. -/
def ones (p : Profile) (d c : Byte) : Nat := onesIn (cmdFieldBits p c ++ devFieldBits p d)

/-- `P(k) = N_START + 12 * N_ZERO + k * (N_ONE - N_ZERO)`: total carrier cycles of a frame. -/
def totalCycles (p : Profile) (k : Nat) : Nat :=
  p.nStart.toNat + p.lastSym * p.nZero.toNat + k * (p.nOne.toNat - p.nZero.toNat)

/-- `T_FRAME(k) = T_CYCLE * P(k) + 13 * T_SPACE`, all 13 spaces counted (42_frame.md R152, R153). -/
def tFrame (p : Profile) (k : Nat) : Nat := p.tCycle * totalCycles p k + p.nSym * p.tSpace.toNat

/-- `dur(SYM n, s)` (41_bit.md R123). -/
def symbolTicks (p : Profile) (y : Symbol) : Nat := y.burst.toNat * p.tCycle + y.space.toNat

/-- `o_s`: the sum of the durations of symbols 0 to `s - 1` (43_transmit.md R183). -/
def symbolOffset (p : Profile) (d c : Byte) (s : Nat) : Nat :=
  (((frameSyms p d c).take s).map (symbolTicks p)).sum

/-! ## The reference decoder (42_frame.md R155), a test oracle -/

/-- The bursts of a waveform, as their numbers of high segments: "a maximal run of segments in which every low segment lasts at
most `T_LOW`; a low segment longer than `T_LOW`, or the end of w, ends a burst". `n` high segments of the burst in progress have
been seen; a run without a high segment is no burst. -/
def burstCounts (tLow : Nat) : Nat → Waveform → List Nat
  | n, [] => if n = 0 then [] else [n]
  | n, g :: w =>
    match g.level with
    | .high => burstCounts tLow (n + 1) w
    | .low =>
      if g.ticks ≤ tLow then burstCounts tLow n w
      else if n = 0 then burstCounts tLow 0 w
      else n :: burstCounts tLow 0 w

/-- The bit of each data burst: 1 if it has `N_ONE` cycles, 0 if it has `N_ZERO`, else the decoder fails. -/
def burstBits (p : Profile) : List Nat → Option (List Bool)
  | [] => some []
  | n :: ns =>
    match burstBits p ns with
    | none => none
    | some bs =>
      if n = p.nOne.toNat then some (true :: bs) else if n = p.nZero.toNat then some (false :: bs) else none

/-- `decode(w)` of 42_frame.md R155, for a waveform in normal form that begins with a high segment: exactly 13 bursts, the first
of `N_START` cycles. The result is `(device, command)`. On other waveforms: log 17. -/
def receive (p : Profile) (w : Waveform) : Option (Nat × Nat) :=
  match w with
  | [] => none
  | g :: _ =>
    if g.level = .low then none
    else
      match burstCounts p.tLow.toNat 0 w with
      | [] => none
      | n0 :: ns =>
        if n0 = p.nStart.toNat ∧ ns.length = p.lastSym then
          match burstBits p ns with
          | none => none
          | some bs => some (bitsValue (bs.drop p.wCmd.toNat), bitsValue (bs.take p.wCmd.toNat))
        else none

end Sys2Proof.Machine
end

