-- ==== Sys2Proof/Machine/Observe.lean ====
section
/-!
DEFINITION. What a run shows: the output ports (spec/10_state.md R36, 43_transmit.md R181), a run of several steps and its
observation (R187), and the host programs of spec/30_encoding.md R87.
-/

namespace Sys2Proof.Machine

/-- Port `ir_out` in this tick: `S_n.PIN` (43_transmit.md R181). -/
def State.irOut (s : State) : Level := s.pin

/-- Port `ready` in this tick: `S_n.PHASE == IDLE` (43_transmit.md R181). -/
def State.ready (s : State) : Bool := s.readyFlag

/-- Port `err` in this tick: `S_n.ERR` (43_transmit.md R181). -/
def State.errOut (s : State) : Bool := s.err

/-- The output ports in one tick. -/
structure Outputs where
  irOut : Level
  ready : Bool
  err : Bool
deriving DecidableEq, Repr

/-- The output ports in this tick: functions of the current state alone (10_state.md R36). -/
def State.outputs (s : State) : Outputs := ⟨s.irOut, s.ready, s.errOut⟩

/-- The port values of this tick, quiet when the script is empty or holds a directly called operation. -/
def State.portsNow (s : State) : Ports :=
  match s.script with
  | .ports p :: _ => p
  | _ => Ports.quiet

/-- The action is one tick of port values with `rst` at 0. -/
def HostAction.leavesResetLow : HostAction → Bool
  | .ports p => !p.rst
  | .symbol _ => false
  | .wire _ => false
  | .call _ => false

/-- The next step is one tick of 43_transmit.md R180: the script has port values (or nothing) next, or a directly called
operation that waits because `PHASE` is not `IDLE` (log 1). -/
def State.nextIsTick (s : State) : Bool :=
  match s.script with
  | [] => true
  | .ports _ :: _ => true
  | .symbol _ :: _ => !s.readyFlag
  | .wire _ :: _ => !s.readyFlag
  | .call _ :: _ => !s.readyFlag

/-- A request is transferred in this tick: presented, `ready == 1`, `rst == 0` (43_transmit.md R171). -/
def State.transfers (s : State) : Bool := s.portsNow.reqValid && s.ready && !s.portsNow.rst

/-- The index `n` of the tick `S_n` is the state of: the ticks that have passed (00_scope.md R16). -/
def State.tick (s : State) : Nat := dur s.pinLog

/-- The time since the end of reset in microseconds, `TICK` for each tick (00_scope.md R12, R16, 70_reset_and_hazards.md R236). -/
def State.timeUs (s : State) : Nat := s.tick * s.cfg.tickUs

/-- `k` steps, stopping at the first refusal. -/
def run : Nat → State → Host.Outcome State Fault Refusal
  | 0, s => .next s
  | k + 1, s =>
    match step s with
    | .next t => run k t
    | .fault r => .fault r
    | .refused r => .refused r

/-- The observation of a run of `k` steps: the outputs before each of them (43_transmit.md R187). -/
def observe : Nat → State → List Outputs
  | 0, _ => []
  | k + 1, s =>
    s.outputs ::
      match step s with
      | .next t => observe k t
      | .fault _ => []
      | .refused _ => []

/-- A host action in the sense of 30_encoding.md R87: `rst` or `req_valid` is driven, or an operation is called (log 1). A tick
with `req_valid = 0` and `rst = 0` is none. -/
def HostAction.acts : HostAction → Bool
  | .ports p => p.rst || p.reqValid
  | .symbol _ => true
  | .wire _ => true
  | .call _ => true

/-- A run is over when no host action is left and `PHASE == IDLE`; the first such tick is its end (43_transmit.md R187). -/
def State.runOver (s : State) : Bool := s.script.all (fun a => !a.acts) && s.ready

/-! ## Host programs (30_encoding.md R87) -/

/-- A line of a test program. -/
inductive HostLine where
  /-- `@first..last TX d, c`; `@t TX d, c` has `first = last = t`. -/
  | tx (first last : Nat) (device command : Byte)
  /-- `@t RESET`. -/
  | reset (t : Nat)
deriving DecidableEq, Repr

/-- The port values in tick `t` that one line adds to those of the other lines. -/
def HostLine.drive (t : Nat) (p : Ports) : HostLine → Ports
  | .tx first last d c =>
    if first ≤ t ∧ t ≤ last then { p with reqValid := true, reqDevice := d, reqCommand := c } else p
  | .reset r => if t = r then { p with rst := true } else p

/-- The port values of a program in tick `t`: "In every tick not mentioned, `req_valid = 0` and `rst = 0`" (R87).
DESIGN CHOICE (log 18): where two `TX` lines cover one tick with different values, which the spec leaves open, the later line of the
list is driven. -/
def portsAt (program : List HostLine) (t : Nat) : Ports :=
  program.foldl (fun p line => line.drive t p) Ports.quiet

/-- The script of the first `n` ticks of a program. -/
def scriptOf (program : List HostLine) (n : Nat) : List HostAction :=
  (List.range n).map (fun t => .ports (portsAt program t))

end Sys2Proof.Machine
end

