-- ==== Sys2Proof/Machine/TickSpec.lean ====
section
/-!
DEFINITION. The step of spec/43_transmit.md R180 (with R179) written down once more in one piece, without fetch, decoding or
dispatch, as the yardstick that `step` is compared with. No meaning calls it.
-/

namespace Sys2Proof.Machine

/-- `begin_symbol()` on given values of `SYM`, `CMD`, `DEV` (43_transmit.md R179). -/
def ruleBeginSymbol (s : State) (sym : BitVec 4) (cmd dev : Byte) : State :=
  let p := s.cfg.profile
  let n := pulses p sym cmd dev
  if n = 0#7 then { s with sym := sym, cmd := cmd, dev := dev, phase := .space, pin := .low, tcnt := p.tSpace.toNat }
  else { s with sym := sym, cmd := cmd, dev := dev, phase := .high, pin := .high, pcnt := n, tcnt := p.tHigh.toNat }

/-- `step(S, in)` of 43_transmit.md R180 on the registers of `S`, case by case in the rule's own order; its constants 127, 31
and 12 "are `2^W_CMD - 1`, `2^W_DEV - 1` and `W_CMD + W_DEV`". -/
def ruleStep (s : State) (p : Ports) : State :=
  if p.rst then
    { s with
      phase := .idle
      pin := .low
      err := false
      sym := 0#4
      pcnt := 0#7
      tcnt := 0
      cmd := 0#8
      dev := 0#8 }
  else
    match s.phase with
    | .idle =>
      if p.reqValid then
        if s.cfg.rangePolicy = .reject ∧ (p.reqCommand.toNat > 2 ^ s.cfg.profile.wCmd.toNat - 1
            ∨ p.reqDevice.toNat > 2 ^ s.cfg.profile.wDev.toNat - 1) then
          { s with err := true }
        else ruleBeginSymbol { s with err := false } 0#4 p.reqCommand p.reqDevice
      else s
    | .high =>
      if s.tcnt > 1 then { s with tcnt := s.tcnt - 1 }
      else { s with phase := .low, pin := .low, tcnt := s.cfg.profile.tLow.toNat }
    | .low =>
      if s.tcnt > 1 then { s with tcnt := s.tcnt - 1 }
      else if s.pcnt > 1#7 then
        { s with pcnt := s.pcnt - 1#7, phase := .high, pin := .high, tcnt := s.cfg.profile.tHigh.toNat }
      else { s with pcnt := 0#7, phase := .space, pin := .low, tcnt := s.cfg.profile.tSpace.toNat }
    | .space =>
      if s.tcnt > 1 then { s with tcnt := s.tcnt - 1 }
      else if s.sym.toNat < s.cfg.profile.wCmd.toNat + s.cfg.profile.wDev.toNat then
        ruleBeginSymbol s (s.sym + 1#4) s.cmd s.dev
      else if s.cfg.gapUs = 0 then { s with phase := .idle, tcnt := 0 }
      else { s with phase := .gap, tcnt := s.cfg.gapUs }
    | .gap =>
      if s.tcnt > 1 then { s with tcnt := s.tcnt - 1 }
      else { s with phase := .idle, tcnt := 0 }

end Sys2Proof.Machine
end

