-- ==== Sys2Proof/Safety.lean ====
section
/-!
DEFINITION. What a safe state and a safe run are: the invariants of spec/10_state.md R40, in the terms the statements use.
-/

namespace Sys2Proof.Machine

/-- The phase's part of 10_state.md R40: what `PHASE` says of `PIN`, `TCNT`, `PCNT`, `SYM`. -/
abbrev State.PhaseInv (s : State) : Prop :=
  (s.phase = .idle → s.pin = .low ∧ s.tcnt = 0)
    ∧ (s.phase = .high → s.pin = .high ∧ 1 ≤ s.tcnt ∧ s.tcnt ≤ s.cfg.profile.tHigh.toNat
        ∧ 1 ≤ s.pcnt.toNat ∧ s.pcnt.toNat ≤ s.cfg.profile.nStart.toNat)
    ∧ (s.phase = .low → s.pin = .low ∧ 1 ≤ s.tcnt ∧ s.tcnt ≤ s.cfg.profile.tLow.toNat
        ∧ 1 ≤ s.pcnt.toNat ∧ s.pcnt.toNat ≤ s.cfg.profile.nStart.toNat)
    ∧ (s.phase = .space → s.pin = .low ∧ 1 ≤ s.tcnt ∧ s.tcnt ≤ s.cfg.profile.tSpace.toNat ∧ s.pcnt = 0#7)
    ∧ (s.phase = .gap → s.pin = .low ∧ 1 ≤ s.tcnt ∧ s.tcnt ≤ s.cfg.gapUs ∧ s.sym.toNat = s.cfg.profile.lastSym
        ∧ s.pcnt = 0#7)

/-- The policy's part of 10_state.md R40 and 60_exceptions.md R204. -/
abbrev State.PolicyInv (s : State) : Prop :=
  (s.cfg.rangePolicy = .reject → s.cmd.toNat ≤ 127 ∧ s.dev.toNat ≤ 31)
    ∧ (s.cfg.rangePolicy = .truncate → s.err = false)

/-- Nothing but the sequencer drives the pin high and leaves it so: no `PINW 1` called from outside is among the host's coming
actions (40_carrier.md R100, 93_implementation_defined.md I15). -/
abbrev State.PinOwned (s : State) : Prop := ∀ a ∈ s.script, a ≠ .call (.pinw .high)

/-- The invariant of every reachable state (10_state.md R40), for the profile `SIRC12`, any `GAP_US` and either policy. -/
abbrev State.Inv (s : State) : Prop :=
  s.cfg.profile = sirc12 ∧ s.sym.toNat ≤ 12 ∧ s.PhaseInv ∧ s.PolicyInv ∧ s.PinOwned

/-- The record of the pin is in normal form (00_scope.md R17), so that equal signals are equal data. -/
abbrev State.LogNormal (s : State) : Prop := isNormal s.pinLog = true

/-- The host leaves `rst` at 0 and calls no operation directly in the next `n` ticks (43_transmit.md R182 assumes the first). -/
abbrev State.NoResetFor (n : Nat) (s : State) : Prop := ∀ a ∈ s.script.take n, a.leavesResetLow = true

/-- The next step is one tick: no operation is called directly, or the sequencer is at work and the call waits (log 1). -/
abbrev State.TickNext (s : State) : Prop := s.nextIsTick = true

end Sys2Proof.Machine
end

