-- ==== Sys2Proof/Certificates/Slice0/Obligations.lean ====
section
/-!
DEFINITION. The statements for the provers. Durations, burst lengths and field widths are those of the state's profile; a
statement that gives the numbers of `SIRC12` assumes that profile. `pushLevel`, `pushWave` extend the record of the pin (log 2),
newest segment first.
-/

open Sys2Proof Sys2Proof.Machine

/-! ## Reset and configuration -/

/-- 70_reset_and_hazards.md R231, R234: the state after power-on. -/
def Obligations.PowerOnStateIsIdleQuietAndReady : Prop :=
  State.reset.phase = .idle ∧ State.reset.pin = .low ∧ State.reset.err = false ∧ State.reset.sym = 0#4
    ∧ State.reset.pcnt = 0#7 ∧ State.reset.tcnt = 0 ∧ State.reset.cmd = 0#8 ∧ State.reset.dev = 0#8
    ∧ State.reset.outputs = ⟨.low, true, false⟩

/-- 10_state.md R32, R33, 00_scope.md R11, R12: the hardware's constants, P0 to P7, `RANGE_POLICY` and `TICK`. -/
def Obligations.HardwareHasTheSirc12Constants : Prop :=
  State.reset.cfg.profile.tHigh.toNat = 12 ∧ State.reset.cfg.profile.tLow.toNat = 13
    ∧ State.reset.cfg.profile.nStart.toNat = 96 ∧ State.reset.cfg.profile.nOne.toNat = 48
    ∧ State.reset.cfg.profile.nZero.toNat = 24 ∧ State.reset.cfg.profile.tSpace.toNat = 600
    ∧ State.reset.cfg.profile.wCmd.toNat = 7 ∧ State.reset.cfg.profile.wDev.toNat = 5
    ∧ State.reset.cfg.rangePolicy = .reject ∧ State.reset.cfg.tickUs = 1 ∧ State.reset.cfg.profile.valid = true

/-- 10_state.md R32, 70 R231: no operation and no step changes the configuration, reset included. -/
def Obligations.ConfigurationIsNeverWritten : Prop :=
  (∀ (i : Instr) (s t : State), exec i s = .next t → t.cfg = s.cfg)
    ∧ (∀ s t : State, step s = .next t → t.cfg = s.cfg)

/-- 43_transmit.md R184, R180 (first arm), 70 R232, R233, 60 R208: a tick with `rst == 1` ends in `S_reset`, whatever the state
and whatever the request ports show; the pin has its old level to the end of that tick. -/
def Obligations.ResetTickEndsInTheResetState : Prop :=
  ∀ (s : State) (p : Ports) (rest : List HostAction), s.script = .ports p :: rest → p.rst = true →
    step s = .next
      { phase := .idle, sym := 0#4, pcnt := 0#7, tcnt := 0, cmd := 0#8, dev := 0#8, err := false, pin := .low
        cfg := s.cfg, script := rest, pinLog := pushLevel s.pin 1 s.pinLog }

/-- 43_transmit.md R184: the operation `RESET`, in every state. -/
def Obligations.ResetOperationCompletes : Prop :=
  ∀ s : State, exec .reset s = .next
    { phase := .idle, sym := 0#4, pcnt := 0#7, tcnt := 0, cmd := 0#8, dev := 0#8, err := false, pin := .low
      cfg := s.cfg, script := s.script, pinLog := pushLevel s.pin 1 s.pinLog }

/-! ## Requests -/

/-- 43_transmit.md R172: a legal request in `IDLE` is accepted, under either policy. -/
def Obligations.LegalRequestIsAccepted : Prop :=
  ∀ (s : State) (d c : Byte), s.cfg.profile = sirc12 → s.phase = .idle → d.toNat ≤ 31 → c.toNat ≤ 127 →
    exec (.tx d c) s = .next { s with
      dev := d, cmd := c, err := false, sym := 0#4, phase := .high, pin := .high, pcnt := 96#7, tcnt := 12
      pinLog := pushLevel s.pin 1 s.pinLog }

/-- 43_transmit.md R173, 60 R201, R202: under `REJECT` a request with a value wider than its field (in `SIRC12`, a device above 31 or a
command above 127) sets `ERR` and does nothing else; the tick passes. -/
def Obligations.WideRequestIsRefusedUnderReject : Prop :=
  ∀ (s : State) (d c : Byte), s.cfg.rangePolicy = .reject → s.phase = .idle →
    (d.toNat > 2 ^ s.cfg.profile.wDev.toNat - 1 ∨ c.toNat > 2 ^ s.cfg.profile.wCmd.toNat - 1) →
    exec (.txWide d c) s = .next { s with err := true, pinLog := pushLevel s.pin 1 s.pinLog }

/-- 43_transmit.md R174: under `TRUNCATE` the same request is accepted with its full 8-bit values. -/
def Obligations.WideRequestIsAcceptedUnderTruncate : Prop :=
  ∀ (s : State) (d c : Byte), s.cfg.profile = sirc12 → s.cfg.rangePolicy = .truncate → s.phase = .idle →
    (d.toNat > 31 ∨ c.toNat > 127) →
    exec (.txWide d c) s = .next { s with
      dev := d, cmd := c, err := false, sym := 0#4, phase := .high, pin := .high, pcnt := 96#7, tcnt := 12
      pinLog := pushLevel s.pin 1 s.pinLog }

/-- 43_transmit.md R171, R175: a request presented in any phase but `IDLE` has no effect: the tick is that of the phase in
progress. That the operation `TX` or `TX.WIDE` is then the phase's tick is the model's reading (log 6, DEDUCED). -/
def Obligations.RequestOutsideIdleHasNoEffect : Prop :=
  ∀ (s : State) (d c : Byte),
    (s.phase = .high → exec (.tx d c) s = exec .phHigh s ∧ exec (.txWide d c) s = exec .phHigh s)
    ∧ (s.phase = .low → exec (.tx d c) s = exec .phLow s ∧ exec (.txWide d c) s = exec .phLow s)
    ∧ (s.phase = .space → exec (.tx d c) s = exec .phSpace s ∧ exec (.txWide d c) s = exec .phSpace s)
    ∧ (s.phase = .gap → exec (.tx d c) s = exec .phGap s ∧ exec (.txWide d c) s = exec .phGap s)

/-- 10_state.md R35, 43 R175, 20 R62: two runs that differ only in the request ports of a tick that transfers nothing make the
same step: in a tick with `rst == 1`, in any phase but `IDLE`, and in `IDLE` when neither presents a request. -/
def Obligations.UntransferredRequestPortsHaveNoInfluence : Prop :=
  ∀ (s : State) (p q : Ports) (rest : List HostAction), p.rst = q.rst →
    (p.rst = true ∨ s.phase ≠ .idle ∨ (p.reqValid = false ∧ q.reqValid = false)) →
    step { s with script := .ports p :: rest } = step { s with script := .ports q :: rest }

/-- 43_transmit.md R171, R172, R173, 60 R208: the step in which a request is transferred is the execution of `TX` or `TX.WIDE`,
as the values are legal or not. -/
def Obligations.TransferredRequestIsExecuted : Prop :=
  ∀ (s : State) (p : Ports) (rest : List HostAction), s.script = .ports p :: rest → p.rst = false →
    p.reqValid = true → s.phase = .idle →
    (p.reqDevice.toNat ≤ 31 ∧ p.reqCommand.toNat ≤ 127 →
      step s = exec (.tx p.reqDevice p.reqCommand) { s with script := rest })
    ∧ (p.reqDevice.toNat > 31 ∨ p.reqCommand.toNat > 127 →
      step s = exec (.txWide p.reqDevice p.reqCommand) { s with script := rest })

/-! ## The phases, one tick at a time (43_transmit.md R180). That they do not look at `PHASE` is log 6. -/

/-- 43_transmit.md R177: a tick of `PH.IDLE` changes nothing; only time passes. That `PH.IDLE` does not look at `PHASE`, so that the
statement is about every state, is the model's choice (log 6, DESIGN CHOICE). -/
def Obligations.IdleTickChangesNothing : Prop :=
  ∀ s : State, exec .phIdle s = .next { s with pinLog := pushLevel s.pin 1 s.pinLog }

/-- 43_transmit.md R180, case `HIGH` (40_carrier.md R110). -/
def Obligations.HighTickCountsDownThenEntersLow : Prop :=
  ∀ s : State,
    (s.tcnt > 1 → exec .phHigh s = .next { s with tcnt := s.tcnt - 1, pinLog := pushLevel s.pin 1 s.pinLog })
    ∧ (s.tcnt ≤ 1 → exec .phHigh s = .next { s with
        phase := .low, pin := .low, tcnt := s.cfg.profile.tLow.toNat, pinLog := pushLevel s.pin 1 s.pinLog })

/-- 43_transmit.md R180, case `LOW` (40_carrier.md R111). -/
def Obligations.LowTickCountsDownThenNextCycleOrSpace : Prop :=
  ∀ s : State,
    (s.tcnt > 1 → exec .phLow s = .next { s with tcnt := s.tcnt - 1, pinLog := pushLevel s.pin 1 s.pinLog })
    ∧ (s.tcnt ≤ 1 → s.pcnt.toNat > 1 → exec .phLow s = .next { s with
        pcnt := s.pcnt - 1#7, phase := .high, pin := .high, tcnt := s.cfg.profile.tHigh.toNat
        pinLog := pushLevel s.pin 1 s.pinLog })
    ∧ (s.tcnt ≤ 1 → s.pcnt.toNat ≤ 1 → exec .phLow s = .next { s with
        pcnt := 0#7, phase := .space, pin := .low, tcnt := s.cfg.profile.tSpace.toNat
        pinLog := pushLevel s.pin 1 s.pinLog })

/-- 43_transmit.md R180, case `SPACE` (41_bit.md R122), with R179: count down; or begin the next symbol; or, after the last symbol (12
in `SIRC12`), the gap, which `GAP_US == 0` skips (R176). No symbol has an empty burst (00_scope.md R11), so that R179's case
`n == 0` does not arise. -/
def Obligations.SpaceTickCountsDownThenNextSymbolOrGap : Prop :=
  ∀ s : State,
    (s.tcnt > 1 → exec .phSpace s = .next { s with tcnt := s.tcnt - 1, pinLog := pushLevel s.pin 1 s.pinLog })
    ∧ (s.tcnt ≤ 1 → s.sym.toNat < s.cfg.profile.wCmd.toNat + s.cfg.profile.wDev.toNat →
        exec .phSpace s = .next { s with
          sym := s.sym + 1#4, phase := .high, pin := .high, tcnt := s.cfg.profile.tHigh.toNat
          pcnt := pulses s.cfg.profile (s.sym + 1#4) s.cmd s.dev, pinLog := pushLevel s.pin 1 s.pinLog }
        ∧ pulses s.cfg.profile (s.sym + 1#4) s.cmd s.dev ≠ 0#7)
    ∧ (s.tcnt ≤ 1 → s.sym.toNat ≥ s.cfg.profile.wCmd.toNat + s.cfg.profile.wDev.toNat → s.cfg.gapUs = 0 →
        exec .phSpace s = .next { s with phase := .idle, tcnt := 0, pinLog := pushLevel s.pin 1 s.pinLog })
    ∧ (s.tcnt ≤ 1 → s.sym.toNat ≥ s.cfg.profile.wCmd.toNat + s.cfg.profile.wDev.toNat → s.cfg.gapUs ≠ 0 →
        exec .phSpace s = .next { s with phase := .gap, tcnt := s.cfg.gapUs, pinLog := pushLevel s.pin 1 s.pinLog })

/-- 43_transmit.md R180, case `GAP` (R176). -/
def Obligations.GapTickCountsDownThenEntersIdle : Prop :=
  ∀ s : State,
    (s.tcnt > 1 → exec .phGap s = .next { s with tcnt := s.tcnt - 1, pinLog := pushLevel s.pin 1 s.pinLog })
    ∧ (s.tcnt ≤ 1 → exec .phGap s = .next { s with phase := .idle, tcnt := 0, pinLog := pushLevel s.pin 1 s.pinLog })

/-! ## The operations realised as a whole. The next state is given in full, so each equation is the frame as well.
Where `TCNT`, `SYM` stand when the operation is over is the model's reading (log 7). -/

/-- 40_carrier.md R101. -/
def Obligations.PinWriteSetsThePinAndTakesNoTime : Prop :=
  ∀ (v : Level) (s : State), exec (.pinw v) s = .next { s with pin := v }

/-- 40_carrier.md R102, R105: `DLY n` is `n` ticks at the level the pin has, `DLYMS n` is `DLY 1000*n`. `TCNT` ends at 0: log 7. -/
def Obligations.DelaysHoldThePinForTheirDuration : Prop :=
  ∀ (n : Nat) (s : State),
    exec (.dly n) s = .next { s with tcnt := 0, pinLog := pushLevel s.pin n s.pinLog }
    ∧ exec (.dlyms n) s = .next { s with tcnt := 0, pinLog := pushLevel s.pin (1000 * n) s.pinLog }

/-- 40_carrier.md R103: 12 ticks high, 13 low in `SIRC12`; the pin ends low. `TCNT` ends at 0: log 7. -/
def Obligations.PulseIsOneCarrierCycle : Prop :=
  ∀ s : State, exec .pulse s = .next { s with
    pin := .low, tcnt := 0
    pinLog := pushWave [⟨.high, s.cfg.profile.tHigh.toNat⟩, ⟨.low, s.cfg.profile.tLow.toNat⟩] s.pinLog }

/-- 40_carrier.md R106, R107: `BURST n` is `n` whole carrier cycles, and `BURST 0` writes nothing. `TCNT` ends at 0: log 7. -/
def Obligations.BurstIsSoManyCarrierCycles : Prop :=
  ∀ (n : BitVec 7) (s : State),
    (n.toNat = 0 → exec (.burst n) s = .next s)
    ∧ (n.toNat ≠ 0 → exec (.burst n) s = .next { s with
        pin := .low, tcnt := 0, pcnt := 0#7
        pinLog := pushWave
          (rep n.toNat [⟨.high, s.cfg.profile.tHigh.toNat⟩, ⟨.low, s.cfg.profile.tLow.toNat⟩]) s.pinLog })

/-- 41_bit.md R121: `T_SPACE` ticks low. `TCNT` ends at 0: log 7. -/
def Obligations.SpaceHoldsThePinLow : Prop :=
  ∀ s : State, exec .space s = .next { s with
    pin := .low, tcnt := 0, pinLog := pushLevel .low s.cfg.profile.tSpace.toNat s.pinLog }

/-- 41_bit.md R123: a burst, then the space; `n == 0` is a bare space and leaves `PCNT`. `TCNT` ends at 0: log 7. -/
def Obligations.SymbolIsABurstThenASpace : Prop :=
  ∀ (n : BitVec 7) (w : BitVec 10) (s : State), exec (.sym n w) s = .next { s with
    pin := .low, tcnt := 0, pcnt := if n.toNat = 0 then s.pcnt else 0#7
    pinLog := pushWave
      (rep n.toNat [⟨.high, s.cfg.profile.tHigh.toNat⟩, ⟨.low, s.cfg.profile.tLow.toNat⟩] ++ [⟨.low, w.toNat⟩])
      s.pinLog }

/-- 41_bit.md R124 to R126, 42_frame.md R142, 30_encoding.md R74, under `SIRC12`: `BIT 1`, `SYM.ONE` are 48 cycles and 600 ticks
low, `BIT 0`, `SYM.ZERO` 24 cycles, `START`, `SYM.START` 96 cycles. `TCNT` ends at 0: log 7. -/
def Obligations.BitAndStartSymbolsHaveTheirBurstLengths : Prop :=
  ∀ s : State, s.cfg.profile = sirc12 →
    let sends (n : Nat) : State := { s with
      pin := .low, tcnt := 0, pcnt := 0#7
      pinLog := pushWave (rep n [⟨.high, 12⟩, ⟨.low, 13⟩] ++ [⟨.low, 600⟩]) s.pinLog }
    exec (.bit true) s = .next (sends 48) ∧ exec .symOne s = .next (sends 48)
      ∧ exec (.bit false) s = .next (sends 24) ∧ exec .symZero s = .next (sends 24)
      ∧ exec .start s = .next (sends 96) ∧ exec .symStart s = .next (sends 96)

/-- 42_frame.md R143, R144: bits LSB first, as many as the field is wide (7 and 5 in `SIRC12`); `CMD` and `DEV` are not written. A
field of no bits sends nothing. `TCNT` ends at 0, `SYM` at the last slot: log 7. -/
def Obligations.FieldBitsAreSentLeastSignificantFirst : Prop :=
  ∀ (v : Byte) (s : State),
    (s.cfg.profile.wCmd.toNat ≠ 0 → exec (.cmdBits v) s = .next { s with
      pin := .low, tcnt := 0, pcnt := 0#7, sym := s.cfg.profile.wCmd
      pinLog := pushWave
        (waveBits s.cfg.profile ((List.range s.cfg.profile.wCmd.toNat).map (fun i => v.getLsbD i))) s.pinLog })
    ∧ (s.cfg.profile.wDev.toNat ≠ 0 → exec (.devBits v) s = .next { s with
      pin := .low, tcnt := 0, pcnt := 0#7, sym := s.cfg.profile.wCmd + s.cfg.profile.wDev
      pinLog := pushWave
        (waveBits s.cfg.profile ((List.range s.cfg.profile.wDev.toNat).map (fun i => v.getLsbD i))) s.pinLog })
    ∧ (s.cfg.profile.wCmd.toNat = 0 → exec (.cmdBits v) s = .next s)
    ∧ (s.cfg.profile.wDev.toNat = 0 → exec (.devBits v) s = .next s)
    ∧ (s.cfg.profile = sirc12 → exec (.cmdBits v) s = .next { s with
      pin := .low, tcnt := 0, pcnt := 0#7, sym := 7#4
      pinLog := pushWave (waveBits sirc12 [v[0], v[1], v[2], v[3], v[4], v[5], v[6]]) s.pinLog })
    ∧ (s.cfg.profile = sirc12 → exec (.devBits v) s = .next { s with
      pin := .low, tcnt := 0, pcnt := 0#7, sym := 12#4
      pinLog := pushWave (waveBits sirc12 [v[0], v[1], v[2], v[3], v[4]]) s.pinLog })

/-- 42_frame.md R146, R147: `FRAME d, c` puts `wave(FRAME d, c)` on the pin, the symbols of `frame_syms(d, c)` in order.
`TCNT` ends at 0, `SYM` at the last slot, 12 in `SIRC12`: log 7. -/
def Obligations.FrameSendsItsSymbolsInOrder : Prop :=
  ∀ (d c : Byte) (s : State), exec (.frame d c) s = .next { s with
    pin := .low, tcnt := 0, pcnt := 0#7, sym := s.cfg.profile.wCmd + s.cfg.profile.wDev
    pinLog := pushWave (waveSyms s.cfg.profile (frameSyms s.cfg.profile d c)) s.pinLog }

/-- 43_transmit.md R176: `GAP_US` ticks with the pin as it is (not written: log 7), then `IDLE`; quiet if the pin is low, as it is in
every state that meets the invariants outside `HIGH`. -/
def Obligations.GapKeepsThePinForItsTicksThenIdle : Prop :=
  ∀ s : State,
    exec .gap s = .next { s with phase := .idle, tcnt := 0, pinLog := pushLevel s.pin s.cfg.gapUs s.pinLog }
    ∧ (s.pin = .low → exec .gap s = .next { s with
        phase := .idle, tcnt := 0, pinLog := pushWave (waveGap s.cfg) s.pinLog })

/-! ## The step -/

/-- When the code that is fetched decodes to an instruction, the step is that instruction's meaning, on the state whose script
has its head used up: all that a step adds around `exec` (log 5). -/
def Obligations.StepRunsTheDecodedInstruction : Prop :=
  ∀ (s : State) (i : Instr), decode s.fetch = .ok i → step s = exec i s.consume

/-- 43_transmit.md R180, R179: a tick is the rule's step on the eight registers; besides it the record of the pin grows by the
tick and the host's script loses the tick's port values. -/
def Obligations.TickIsTheStepOfTheRule : Prop :=
  ∀ s : State, s.TickNext →
    step s = .next { ruleStep s s.portsNow with
      script := s.consume.script, pinLog := pushLevel s.pin 1 s.pinLog }

/-- 43_transmit.md R187: the block never halts: every tick has a next state, and a directly called operation too unless the
decoder rejects it. -/
def Obligations.EveryTickHasANextState : Prop :=
  ∀ s : State, (s.TickNext → ∃ t, step s = .next t)
    ∧ (∀ i, decode s.fetch = .ok i → ∃ t, step s = .next t)
    ∧ (∀ why, decode s.fetch = .error why → step s = .refused (.undecodable why))

/-- 00_scope.md R16, R12: a tick takes `TICK`, one microsecond in the hardware. -/
def Obligations.TickLastsOneMicrosecond : Prop :=
  ∀ s t : State, s.TickNext → step s = .next t →
    t.tick = s.tick + 1 ∧ (s.cfg.tickUs = 1 → t.timeUs = s.timeUs + 1) ∧ t.timeUs = s.timeUs + s.cfg.tickUs

/-! ## Invariants -/

/-- 10_state.md R40 at reset. -/
def Obligations.ResetStateMeetsTheInvariants : Prop := State.reset.Inv ∧ State.reset.LogNormal

/-- 10_state.md R40: every step keeps the invariants, from every state that meets them, for every `GAP_US` and either policy. -/
def Obligations.EveryStepKeepsTheInvariants : Prop :=
  ∀ s t : State, s.Inv → step s = .next t → t.Inv

/-- 00_scope.md R17: every step keeps the record of the pin in normal form. -/
def Obligations.EveryStepKeepsTheRecordNormal : Prop :=
  ∀ s t : State, s.LogNormal → step s = .next t → t.LogNormal

/-- 10_state.md R40: in a state that meets the invariants `PIN == 1` if and only if `PHASE == HIGH`. -/
def Obligations.PinIsHighExactlyInHigh : Prop :=
  ∀ s : State, s.Inv → (s.irOut = .high ↔ s.phase = .high)

/-! ## Rules about the whole machine -/

/-- 10_state.md R23, R21, R22, 20_memory.md R56: `CMD` and `DEV` are written together, by an accepted request and by reset, and keep
their values in every other step. -/
def Obligations.OperandsAreWrittenOnlyByAcceptanceOrReset : Prop :=
  ∀ s t : State, step s = .next t →
    let accepted := s.transfers = true ∧ (s.cfg.rangePolicy = .truncate
      ∨ (s.portsNow.reqDevice.toNat ≤ 2 ^ s.cfg.profile.wDev.toNat - 1
        ∧ s.portsNow.reqCommand.toNat ≤ 2 ^ s.cfg.profile.wCmd.toNat - 1))
    (s.portsNow.rst = true → t.cmd = 0#8 ∧ t.dev = 0#8)
    ∧ (accepted → t.cmd = s.portsNow.reqCommand ∧ t.dev = s.portsNow.reqDevice)
    ∧ (s.portsNow.rst = false → ¬accepted → t.cmd = s.cmd ∧ t.dev = s.dev)

/-- 60_exceptions.md R201, R210, 10_state.md R26: what `ERR` is after any step: set exactly by a transferred request with a value out
of range under `REJECT`, cleared by any other transferred request and by reset, and otherwise unchanged. -/
def Obligations.ErrorFlagTellsTheLastTransfer : Prop :=
  ∀ s t : State, step s = .next t →
    (s.portsNow.rst = true → t.err = false)
    ∧ (s.transfers = true → (t.err = true ↔ s.cfg.rangePolicy = .reject
        ∧ (s.portsNow.reqCommand.toNat > 2 ^ s.cfg.profile.wCmd.toNat - 1
          ∨ s.portsNow.reqDevice.toNat > 2 ^ s.cfg.profile.wDev.toNat - 1)))
    ∧ (s.portsNow.rst = false → s.transfers = false → t.err = s.err)

/-- 10_state.md R27: in a tick the pin rises only on entry to `HIGH`, and falls only on entry to `LOW` or `SPACE` or by reset. -/
def Obligations.PinChangesOnlyOnPhaseEntry : Prop :=
  ∀ s t : State, s.TickNext → step s = .next t →
    (s.pin = .low → t.pin = .high → t.phase = .high ∧ t.tcnt = s.cfg.profile.tHigh.toNat)
    ∧ (s.pin = .high → t.pin = .low → s.portsNow.rst = true ∨ (t.phase = .low ∧ t.tcnt = s.cfg.profile.tLow.toNat)
        ∨ (t.phase = .space ∧ t.tcnt = s.cfg.profile.tSpace.toNat))

/-- 42_frame.md R141, 10_state.md R25: in a tick `SYM` stays, or goes up by one at the end of a space that is not the last, or is set
to 0 by an accepted request or by reset. -/
def Obligations.SymbolsFollowOneAnotherInOrder : Prop :=
  ∀ s t : State, s.TickNext → step s = .next t →
    t.sym = s.sym
      ∨ (s.phase = .space ∧ s.tcnt ≤ 1 ∧ s.sym.toNat < s.cfg.profile.wCmd.toNat + s.cfg.profile.wDev.toNat
        ∧ t.sym.toNat = s.sym.toNat + 1)
      ∨ (t.sym = 0#4 ∧ (s.transfers = true ∨ s.portsNow.rst = true))

/-- 43_transmit.md R186, R171: without reset the block leaves `IDLE` only by an accepted request, and enters it only from `GAP`, or
from the `SPACE` of the last symbol (12 in `SIRC12`) when `GAP_US == 0`. -/
def Obligations.IdleIsLeftByAcceptanceAndEnteredAfterTheFrame : Prop :=
  ∀ s t : State, step s = .next t → s.portsNow.rst = false →
    (s.phase = .idle → t.phase ≠ .idle → s.transfers = true ∧ t.err = false)
    ∧ (s.phase ≠ .idle → t.phase = .idle → s.tcnt ≤ 1
        ∧ (s.phase = .gap ∨ (s.phase = .space ∧ s.cfg.gapUs = 0
            ∧ s.sym.toNat ≥ s.cfg.profile.wCmd.toNat + s.cfg.profile.wDev.toNat)))

/-! ## Encodings -/

/-- 30_encoding.md R71 to R76, R80: decoding an encoded well-formed instruction gives it back, every operand at every value. -/
def Obligations.DecodeOfEncodeIsTheInstruction : Prop :=
  ∀ i : Instr, i.wellFormed = true → decode (encode i) = .ok i

/-- 30_encoding.md R80 to R83: a code that decodes has a well-formed instruction, whose encoding is that code. -/
def Obligations.EncodeOfDecodeIsTheCode : Prop :=
  ∀ (k : Code) (i : Instr), decode k = .ok i → i.wellFormed = true ∧ encode i = k

/-- 30_encoding.md R72, R81: a request word is a legal `TX` exactly when both values fit their fields, that is when bits 15, 14, 13
and 7 are 0; any other word is `TX.WIDE`. -/
def Obligations.LegalPatternIsTheRangeCheck : Prop :=
  ∀ d c : Byte,
    (decode (.req16 (d ++ c)) = .ok (.tx d c) ↔ d.toNat ≤ 31 ∧ c.toNat ≤ 127)
    ∧ ((d ++ c) &&& 0xE080#16 = 0#16 ↔ d.toNat ≤ 31 ∧ c.toNat ≤ 127)
    ∧ (decode (.req16 (d ++ c)) = .ok (.txWide d c) ↔ ¬(d.toNat ≤ 31 ∧ c.toNat ≤ 127))

/-- 30_encoding.md R75, R83: the code of each phase is the operation of that phase, and the codes 5, 6, 7 are rejected. -/
def Obligations.PhaseCodesAreFiveAndThreeAreReserved : Prop :=
  (∀ w : BitVec 3, decode (.phase3 w) =
      match w.toNat with
      | 0 => .ok .phIdle
      | 1 => .ok .phHigh
      | 2 => .ok .phLow
      | 3 => .ok .phSpace
      | 4 => .ok .phGap
      | _ => .error (.reservedPhase w))
    ∧ Phase.idle.code.toNat = 0 ∧ Phase.high.code.toNat = 1 ∧ Phase.low.code.toNat = 2
    ∧ Phase.space.code.toNat = 3 ∧ Phase.gap.code.toNat = 4

/-- Words of 95_test_vectors.md B4 (V50 to V54, V56), and the word of `SYM 3, 0` by 30_encoding.md R73 (it is not in B4), decode to
what they stand for. How a row's bits are numbered, in whole bytes, is the model's choice (log 12). -/
def Obligations.WordsOfTheSpecDecodeAsItSays : Prop :=
  decodeTableWord 16 0x0115 = some (.tx 0x01#8 0x15#8) ∧ decodeTableWord 16 0x1F7F = some (.tx 31#8 127#8)
    ∧ decodeTableWord 16 0x0195 = some (.txWide 0x01#8 0x95#8)
    ∧ decodeTableWord 16 0x2015 = some (.txWide 0x20#8 0x15#8)
    ∧ decodeTableWord 24 0x18258 = some .symStart ∧ decodeTableWord 24 0x0C258 = some .symOne
    ∧ decodeTableWord 24 0x06258 = some .symZero ∧ decodeTableWord 24 0x00C00 = some (.sym 3#7 0#10)
    ∧ decodeTableWord 8 0 = some .phIdle ∧ decodeTableWord 8 1 = some .phHigh ∧ decodeTableWord 8 2 = some .phLow
    ∧ decodeTableWord 8 3 = some .phSpace ∧ decodeTableWord 8 4 = some .phGap ∧ decodeTableWord 8 5 = none

/-! ## The frame as data -/

/-- 42_frame.md R150: `1 + W_CMD + W_DEV` symbols, 13 in `SIRC12`, each with a burst and a space in a valid profile. -/
def Obligations.EveryFrameHasThirteenSymbols : Prop :=
  ∀ (p : Profile) (d c : Byte), (frameSyms p d c).length = 1 + p.wCmd.toNat + p.wDev.toNat
    ∧ (frameSyms sirc12 d c).length = 13
    ∧ (p.valid = true → ∀ y ∈ frameSyms p d c, y.burst ≠ 0#7 ∧ y.space ≠ 0#10)

/-- 42_frame.md R148 against R147: `pulses` gives the burst length of every slot of the frame, and every space is `T_SPACE`. -/
def Obligations.PulsesAgreeWithTheFrameAsAList : Prop :=
  ∀ (p : Profile) (d c : Byte) (s : BitVec 4), s.toNat ≤ p.wCmd.toNat + p.wDev.toNat →
    (frameSyms p d c)[s.toNat]? = some ⟨pulses p s c d, p.tSpace⟩

/-- 42_frame.md R149: a frame depends only on the bits within the field widths, the low 5 and the low 7 in `SIRC12`: as a list, as a
waveform and as an operation. -/
def Obligations.FrameTruncatesItsOperands : Prop :=
  ∀ (p : Profile) (d c d' c' : Byte),
    d.toNat % 2 ^ p.wDev.toNat = d'.toNat % 2 ^ p.wDev.toNat →
    c.toNat % 2 ^ p.wCmd.toNat = c'.toNat % 2 ^ p.wCmd.toNat →
    frameSyms p d c = frameSyms p d' c' ∧ waveFrame p d c = waveFrame p d' c'
    ∧ (∀ s : State, s.cfg.profile = p → exec (.frame d c) s = exec (.frame d' c') s)
    ∧ frameSyms sirc12 d c = frameSyms sirc12 (d &&& 0x1F#8) (c &&& 0x7F#8)
    ∧ waveFrame sirc12 d c = waveFrame sirc12 (d &&& 0x1F#8) (c &&& 0x7F#8)
    ∧ ∀ s : State, s.cfg.profile = sirc12 →
      exec (.frame d c) s = exec (.frame (d &&& 0x1F#8) (c &&& 0x7F#8)) s

/-- 42_frame.md R147, R146: the two definitions of `wave(FRAME d, c)` agree. -/
def Obligations.FrameWaveformIsThatOfItsSymbols : Prop :=
  ∀ (p : Profile) (d c : Byte), waveFrame p d c = waveSyms p (frameSyms p d c)

/-- 42_frame.md R152 for `SIRC12`: duration, high ticks, carrier cycles, segments before and after `norm`. -/
def Obligations.FrameDurationAndCounts : Prop :=
  ∀ d c : Byte,
    dur (waveFrame sirc12 d c) = 17400 + 600 * ones sirc12 d c
    ∧ dur (waveFrame sirc12 d c) = tFrame sirc12 (ones sirc12 d c)
    ∧ ticksAt .high (waveFrame sirc12 d c) = 4608 + 288 * ones sirc12 d c
    ∧ highSegments (waveFrame sirc12 d c) = 384 + 24 * ones sirc12 d c
    ∧ (waveFrame sirc12 d c).length = 2 * (384 + 24 * ones sirc12 d c) + 13
    ∧ (normWave (waveFrame sirc12 d c)).length = 2 * (384 + 24 * ones sirc12 d c)
    ∧ ones sirc12 d c ≤ 12

/-- 30_encoding.md R77: different legal pairs have different frames, in the burst length of some slot. -/
def Obligations.LegalPairsHaveDifferentFrames : Prop :=
  ∀ (p : Profile) (d c d' c' : Byte), p.valid = true →
    d.toNat < 2 ^ p.wDev.toNat → c.toNat < 2 ^ p.wCmd.toNat →
    d'.toNat < 2 ^ p.wDev.toNat → c'.toNat < 2 ^ p.wCmd.toNat →
    frameSyms p d c = frameSyms p d' c' → d = d' ∧ c = c'

/-- 20_memory.md R51, R52, 30_encoding.md R77: after the start symbol the frame sends the bits of `W12` from bit 0 upward
(fields of 7 and 5 bits). -/
def Obligations.FrameSendsTheBitsOfTheWireWord : Prop :=
  ∀ (p : Profile) (d c : Byte) (i : Nat), p.wCmd = 7#4 → p.wDev = 5#4 → i < 12 →
    (frameSyms p d c)[i + 1]? = some ⟨if (w12 d c).getLsbD i then p.nOne else p.nZero, p.tSpace⟩
    ∧ (w12 d c).toNat = (d &&& 0x1F#8).toNat * 128 + (c &&& 0x7F#8).toNat

/-- 43_transmit.md R183 for `SIRC12`, in ticks from the first tick of the frame: cycle `j` of symbol `s` is high for 12 ticks and
low for 13, and the space of 600 ticks follows the last cycle. -/
def Obligations.SymbolsStandAtTheirOffsets : Prop :=
  ∀ (d c : Byte) (s : Nat) (y : Symbol), (frameSyms sirc12 d c)[s]? = some y →
    (∀ j x, j < y.burst.toNat → x < 25 →
      levelAt (waveFrame sirc12 d c) (symbolOffset sirc12 d c s + 25 * j + x)
        = some (if x < 12 then .high else .low))
    ∧ (∀ x, x < 600 →
      levelAt (waveFrame sirc12 d c) (symbolOffset sirc12 d c s + 25 * y.burst.toNat + x) = some .low)

/-- 42_frame.md R155: the reference decoder recovers the pair from the waveform on the wire, for all 8-bit operands. -/
def Obligations.ReceiverRecoversThePair : Prop :=
  ∀ d c : Byte, receive sirc12 (normWave (waveFrame sirc12 d c)) = some ((d &&& 0x1F#8).toNat, (c &&& 0x7F#8).toNat)

/-- 00_scope.md R17: `norm` is in normal form and is the same signal: the level in every tick is unchanged. -/
def Obligations.NormIsTheSameSignal : Prop :=
  ∀ w : Waveform, isNormal (normWave w) = true ∧ dur (normWave w) = dur w ∧ ∀ t, levelAt (normWave w) t = levelAt w t

/-- The record of the pin (log 2) is `norm` of what was put on the pin, newest first (00_scope.md R17). -/
def Obligations.RecordIsTheNormOfTheWaveform : Prop :=
  ∀ v w : Waveform, pushWave w (normWave v).reverse = (normWave (v ++ w)).reverse

/-! ## Time: the tick-level machine against the waveforms -/

/-- 40_carrier.md R110, R111, 10_state.md R30: `HIGH` and `LOW` last exactly as many ticks as `TCNT` was loaded with. -/
def Obligations.CarrierPhasesLastTheirTicks : Prop :=
  ∀ (s : State) (n : Nat), s.tcnt = n → 1 ≤ n → s.NoResetFor n →
    (s.phase = .high → run n s = .next { s with
      phase := .low, pin := .low, tcnt := s.cfg.profile.tLow.toNat, script := s.script.drop n
      pinLog := pushLevel s.pin n s.pinLog })
    ∧ (s.phase = .low → s.pcnt.toNat > 1 → run n s = .next { s with
      phase := .high, pin := .high, tcnt := s.cfg.profile.tHigh.toNat, pcnt := s.pcnt - 1#7
      script := s.script.drop n, pinLog := pushLevel s.pin n s.pinLog })
    ∧ (s.phase = .low → s.pcnt.toNat ≤ 1 → run n s = .next { s with
      phase := .space, pin := .low, tcnt := s.cfg.profile.tSpace.toNat, pcnt := 0#7
      script := s.script.drop n, pinLog := pushLevel s.pin n s.pinLog })

/-- 43_transmit.md R176, 10_state.md R30: `GAP` lasts exactly as many ticks as `TCNT` was loaded with. -/
def Obligations.GapLastsItsTicks : Prop :=
  ∀ (s : State) (n : Nat), s.tcnt = n → 1 ≤ n → s.phase = .gap → s.NoResetFor n →
    run n s = .next { s with
      phase := .idle, tcnt := 0, script := s.script.drop n, pinLog := pushLevel s.pin n s.pinLog }

/-- 40_carrier.md R106, 43 R182: from the first tick of a burst of `n` cycles, `25 n` ticks put `wave(BURST n)` on the pin and lead
to the first tick of the space. -/
def Obligations.BurstLastsTwentyFiveTicksACycle : Prop :=
  ∀ (s : State) (n : BitVec 7), s.cfg.profile = sirc12 → s.phase = .high → s.pin = .high → s.tcnt = 12 → s.pcnt = n →
    1 ≤ n.toNat → s.NoResetFor (25 * n.toNat) →
    run (25 * n.toNat) s = .next { s with
      phase := .space, pin := .low, tcnt := 600, pcnt := 0#7, script := s.script.drop (25 * n.toNat)
      pinLog := pushWave (waveBurst sirc12 n) s.pinLog }

/-- 43_transmit.md R182, R172, R174: a request accepted in this tick (a legal one, or any under `TRUNCATE`), with no reset until the
gap is over, sends `wave(FRAME d, c) ++ [(0, GAP_US)]` from the next tick on, with no tick between, in `T_FRAME(k) + GAP_US` ticks,
and the block is in `IDLE` again. -/
def Obligations.AcceptedRequestSendsItsFrame : Prop :=
  ∀ (s : State) (p : Ports) (rest : List HostAction), s.cfg.profile = sirc12 → s.phase = .idle →
    s.script = .ports p :: rest → p.rst = false → p.reqValid = true →
    (s.cfg.rangePolicy = .truncate ∨ (p.reqDevice.toNat ≤ 31 ∧ p.reqCommand.toNat ≤ 127)) →
    let n := 17400 + 600 * ones sirc12 p.reqDevice p.reqCommand + s.cfg.gapUs
    (∀ a ∈ rest.take n, a.leavesResetLow = true) →
    run (1 + n) s = .next
      { phase := .idle, sym := 12#4, pcnt := 0#7, tcnt := 0, cmd := p.reqCommand, dev := p.reqDevice, err := false
        pin := .low, cfg := s.cfg, script := rest.drop n
        pinLog := pushWave (⟨s.pin, 1⟩ :: (waveFrame sirc12 p.reqDevice p.reqCommand ++ [⟨.low, s.cfg.gapUs⟩]))
          s.pinLog }

/-- 43_transmit.md R178: after a request accepted in this tick (a legal one, or any under `TRUNCATE`) `ready` is 0 for exactly
`T_FRAME(k) + GAP_US` ticks. -/
def Obligations.ReadyIsLowForTheFrameAndTheGap : Prop :=
  ∀ (s : State) (p : Ports) (rest : List HostAction), s.cfg.profile = sirc12 → s.phase = .idle →
    s.script = .ports p :: rest → p.rst = false → p.reqValid = true →
    (s.cfg.rangePolicy = .truncate ∨ (p.reqDevice.toNat ≤ 31 ∧ p.reqCommand.toNat ≤ 127)) →
    let n := 17400 + 600 * ones sirc12 p.reqDevice p.reqCommand + s.cfg.gapUs
    (∀ a ∈ rest.take n, a.leavesResetLow = true) →
    (∀ j, 1 ≤ j → j ≤ n → ∃ t, run j s = .next t ∧ t.ready = false)
    ∧ ∃ t, run (1 + n) s = .next t ∧ t.ready = true
end

