-- ==== Sys2Proof/Laws/State.lean ====
section
/-!
SUPPORT. One lemma per field per update of the state, so that later proofs unfold no record update.
-/

namespace Sys2Proof.Machine

/-! ### `State.elapse` -/

@[simp] theorem State.elapse_phase (n : Nat) (s : State) : (s.elapse n).phase = s.phase := rfl
@[simp] theorem State.elapse_sym (n : Nat) (s : State) : (s.elapse n).sym = s.sym := rfl
@[simp] theorem State.elapse_pcnt (n : Nat) (s : State) : (s.elapse n).pcnt = s.pcnt := rfl
@[simp] theorem State.elapse_tcnt (n : Nat) (s : State) : (s.elapse n).tcnt = s.tcnt := rfl
@[simp] theorem State.elapse_cmd (n : Nat) (s : State) : (s.elapse n).cmd = s.cmd := rfl
@[simp] theorem State.elapse_dev (n : Nat) (s : State) : (s.elapse n).dev = s.dev := rfl
@[simp] theorem State.elapse_err (n : Nat) (s : State) : (s.elapse n).err = s.err := rfl
@[simp] theorem State.elapse_pin (n : Nat) (s : State) : (s.elapse n).pin = s.pin := rfl
@[simp] theorem State.elapse_cfg (n : Nat) (s : State) : (s.elapse n).cfg = s.cfg := rfl
@[simp] theorem State.elapse_script (n : Nat) (s : State) : (s.elapse n).script = s.script := rfl
@[simp] theorem State.elapse_pinLog (n : Nat) (s : State) : (s.elapse n).pinLog = pushLevel s.pin n s.pinLog := rfl

/-! ### `State.writePin` -/

@[simp] theorem State.writePin_phase (v : Level) (s : State) : (s.writePin v).phase = s.phase := rfl
@[simp] theorem State.writePin_sym (v : Level) (s : State) : (s.writePin v).sym = s.sym := rfl
@[simp] theorem State.writePin_pcnt (v : Level) (s : State) : (s.writePin v).pcnt = s.pcnt := rfl
@[simp] theorem State.writePin_tcnt (v : Level) (s : State) : (s.writePin v).tcnt = s.tcnt := rfl
@[simp] theorem State.writePin_cmd (v : Level) (s : State) : (s.writePin v).cmd = s.cmd := rfl
@[simp] theorem State.writePin_dev (v : Level) (s : State) : (s.writePin v).dev = s.dev := rfl
@[simp] theorem State.writePin_err (v : Level) (s : State) : (s.writePin v).err = s.err := rfl
@[simp] theorem State.writePin_pin (v : Level) (s : State) : (s.writePin v).pin = v := rfl
@[simp] theorem State.writePin_cfg (v : Level) (s : State) : (s.writePin v).cfg = s.cfg := rfl
@[simp] theorem State.writePin_script (v : Level) (s : State) : (s.writePin v).script = s.script := rfl
@[simp] theorem State.writePin_pinLog (v : Level) (s : State) : (s.writePin v).pinLog = s.pinLog := rfl

/-! ### `State.delay` -/

@[simp] theorem State.delay_phase (n : Nat) (s : State) : (s.delay n).phase = s.phase := rfl
@[simp] theorem State.delay_sym (n : Nat) (s : State) : (s.delay n).sym = s.sym := rfl
@[simp] theorem State.delay_pcnt (n : Nat) (s : State) : (s.delay n).pcnt = s.pcnt := rfl
@[simp] theorem State.delay_tcnt (n : Nat) (s : State) : (s.delay n).tcnt = 0 := rfl
@[simp] theorem State.delay_cmd (n : Nat) (s : State) : (s.delay n).cmd = s.cmd := rfl
@[simp] theorem State.delay_dev (n : Nat) (s : State) : (s.delay n).dev = s.dev := rfl
@[simp] theorem State.delay_err (n : Nat) (s : State) : (s.delay n).err = s.err := rfl
@[simp] theorem State.delay_pin (n : Nat) (s : State) : (s.delay n).pin = s.pin := rfl
@[simp] theorem State.delay_cfg (n : Nat) (s : State) : (s.delay n).cfg = s.cfg := rfl
@[simp] theorem State.delay_script (n : Nat) (s : State) : (s.delay n).script = s.script := rfl
@[simp] theorem State.delay_pinLog (n : Nat) (s : State) : (s.delay n).pinLog = pushLevel s.pin n s.pinLog := rfl

/-! ### `State.enterHigh` -/

@[simp] theorem State.enterHigh_phase (s : State) : s.enterHigh.phase = .high := rfl
@[simp] theorem State.enterHigh_sym (s : State) : s.enterHigh.sym = s.sym := rfl
@[simp] theorem State.enterHigh_pcnt (s : State) : s.enterHigh.pcnt = s.pcnt := rfl
@[simp] theorem State.enterHigh_tcnt (s : State) : s.enterHigh.tcnt = s.cfg.profile.tHigh.toNat := rfl
@[simp] theorem State.enterHigh_cmd (s : State) : s.enterHigh.cmd = s.cmd := rfl
@[simp] theorem State.enterHigh_dev (s : State) : s.enterHigh.dev = s.dev := rfl
@[simp] theorem State.enterHigh_err (s : State) : s.enterHigh.err = s.err := rfl
@[simp] theorem State.enterHigh_pin (s : State) : s.enterHigh.pin = .high := rfl
@[simp] theorem State.enterHigh_cfg (s : State) : s.enterHigh.cfg = s.cfg := rfl
@[simp] theorem State.enterHigh_script (s : State) : s.enterHigh.script = s.script := rfl
@[simp] theorem State.enterHigh_pinLog (s : State) : s.enterHigh.pinLog = s.pinLog := rfl

/-! ### `State.enterLow` -/

@[simp] theorem State.enterLow_phase (s : State) : s.enterLow.phase = .low := rfl
@[simp] theorem State.enterLow_sym (s : State) : s.enterLow.sym = s.sym := rfl
@[simp] theorem State.enterLow_pcnt (s : State) : s.enterLow.pcnt = s.pcnt := rfl
@[simp] theorem State.enterLow_tcnt (s : State) : s.enterLow.tcnt = s.cfg.profile.tLow.toNat := rfl
@[simp] theorem State.enterLow_cmd (s : State) : s.enterLow.cmd = s.cmd := rfl
@[simp] theorem State.enterLow_dev (s : State) : s.enterLow.dev = s.dev := rfl
@[simp] theorem State.enterLow_err (s : State) : s.enterLow.err = s.err := rfl
@[simp] theorem State.enterLow_pin (s : State) : s.enterLow.pin = .low := rfl
@[simp] theorem State.enterLow_cfg (s : State) : s.enterLow.cfg = s.cfg := rfl
@[simp] theorem State.enterLow_script (s : State) : s.enterLow.script = s.script := rfl
@[simp] theorem State.enterLow_pinLog (s : State) : s.enterLow.pinLog = s.pinLog := rfl

/-! ### `State.enterSpace` -/

@[simp] theorem State.enterSpace_phase (s : State) : s.enterSpace.phase = .space := rfl
@[simp] theorem State.enterSpace_sym (s : State) : s.enterSpace.sym = s.sym := rfl
@[simp] theorem State.enterSpace_pcnt (s : State) : s.enterSpace.pcnt = s.pcnt := rfl
@[simp] theorem State.enterSpace_tcnt (s : State) : s.enterSpace.tcnt = s.cfg.profile.tSpace.toNat := rfl
@[simp] theorem State.enterSpace_cmd (s : State) : s.enterSpace.cmd = s.cmd := rfl
@[simp] theorem State.enterSpace_dev (s : State) : s.enterSpace.dev = s.dev := rfl
@[simp] theorem State.enterSpace_err (s : State) : s.enterSpace.err = s.err := rfl
@[simp] theorem State.enterSpace_pin (s : State) : s.enterSpace.pin = .low := rfl
@[simp] theorem State.enterSpace_cfg (s : State) : s.enterSpace.cfg = s.cfg := rfl
@[simp] theorem State.enterSpace_script (s : State) : s.enterSpace.script = s.script := rfl
@[simp] theorem State.enterSpace_pinLog (s : State) : s.enterSpace.pinLog = s.pinLog := rfl

/-! ### `State.enterIdle` -/

@[simp] theorem State.enterIdle_phase (s : State) : s.enterIdle.phase = .idle := rfl
@[simp] theorem State.enterIdle_sym (s : State) : s.enterIdle.sym = s.sym := rfl
@[simp] theorem State.enterIdle_pcnt (s : State) : s.enterIdle.pcnt = s.pcnt := rfl
@[simp] theorem State.enterIdle_tcnt (s : State) : s.enterIdle.tcnt = 0 := rfl
@[simp] theorem State.enterIdle_cmd (s : State) : s.enterIdle.cmd = s.cmd := rfl
@[simp] theorem State.enterIdle_dev (s : State) : s.enterIdle.dev = s.dev := rfl
@[simp] theorem State.enterIdle_err (s : State) : s.enterIdle.err = s.err := rfl
@[simp] theorem State.enterIdle_pin (s : State) : s.enterIdle.pin = s.pin := rfl
@[simp] theorem State.enterIdle_cfg (s : State) : s.enterIdle.cfg = s.cfg := rfl
@[simp] theorem State.enterIdle_script (s : State) : s.enterIdle.script = s.script := rfl
@[simp] theorem State.enterIdle_pinLog (s : State) : s.enterIdle.pinLog = s.pinLog := rfl

/-! ### `State.countDown` -/

@[simp] theorem State.countDown_phase (s : State) : s.countDown.phase = s.phase := rfl
@[simp] theorem State.countDown_sym (s : State) : s.countDown.sym = s.sym := rfl
@[simp] theorem State.countDown_pcnt (s : State) : s.countDown.pcnt = s.pcnt := rfl
@[simp] theorem State.countDown_tcnt (s : State) : s.countDown.tcnt = s.tcnt - 1 := rfl
@[simp] theorem State.countDown_cmd (s : State) : s.countDown.cmd = s.cmd := rfl
@[simp] theorem State.countDown_dev (s : State) : s.countDown.dev = s.dev := rfl
@[simp] theorem State.countDown_err (s : State) : s.countDown.err = s.err := rfl
@[simp] theorem State.countDown_pin (s : State) : s.countDown.pin = s.pin := rfl
@[simp] theorem State.countDown_cfg (s : State) : s.countDown.cfg = s.cfg := rfl
@[simp] theorem State.countDown_script (s : State) : s.countDown.script = s.script := rfl
@[simp] theorem State.countDown_pinLog (s : State) : s.countDown.pinLog = s.pinLog := rfl

/-! ### `State.setErr` -/

@[simp] theorem State.setErr_phase (s : State) : s.setErr.phase = s.phase := rfl
@[simp] theorem State.setErr_sym (s : State) : s.setErr.sym = s.sym := rfl
@[simp] theorem State.setErr_pcnt (s : State) : s.setErr.pcnt = s.pcnt := rfl
@[simp] theorem State.setErr_tcnt (s : State) : s.setErr.tcnt = s.tcnt := rfl
@[simp] theorem State.setErr_cmd (s : State) : s.setErr.cmd = s.cmd := rfl
@[simp] theorem State.setErr_dev (s : State) : s.setErr.dev = s.dev := rfl
@[simp] theorem State.setErr_err (s : State) : s.setErr.err = true := rfl
@[simp] theorem State.setErr_pin (s : State) : s.setErr.pin = s.pin := rfl
@[simp] theorem State.setErr_cfg (s : State) : s.setErr.cfg = s.cfg := rfl
@[simp] theorem State.setErr_script (s : State) : s.setErr.script = s.script := rfl
@[simp] theorem State.setErr_pinLog (s : State) : s.setErr.pinLog = s.pinLog := rfl

/-! ### `State.clearErr` -/

@[simp] theorem State.clearErr_phase (s : State) : s.clearErr.phase = s.phase := rfl
@[simp] theorem State.clearErr_sym (s : State) : s.clearErr.sym = s.sym := rfl
@[simp] theorem State.clearErr_pcnt (s : State) : s.clearErr.pcnt = s.pcnt := rfl
@[simp] theorem State.clearErr_tcnt (s : State) : s.clearErr.tcnt = s.tcnt := rfl
@[simp] theorem State.clearErr_cmd (s : State) : s.clearErr.cmd = s.cmd := rfl
@[simp] theorem State.clearErr_dev (s : State) : s.clearErr.dev = s.dev := rfl
@[simp] theorem State.clearErr_err (s : State) : s.clearErr.err = false := rfl
@[simp] theorem State.clearErr_pin (s : State) : s.clearErr.pin = s.pin := rfl
@[simp] theorem State.clearErr_cfg (s : State) : s.clearErr.cfg = s.cfg := rfl
@[simp] theorem State.clearErr_script (s : State) : s.clearErr.script = s.script := rfl
@[simp] theorem State.clearErr_pinLog (s : State) : s.clearErr.pinLog = s.pinLog := rfl

/-! ### `State.raise` -/

@[simp] theorem State.raise_phase (e : Exc) (s : State) : (s.raise e).phase = s.phase := by cases e; rfl
@[simp] theorem State.raise_sym (e : Exc) (s : State) : (s.raise e).sym = s.sym := by cases e; rfl
@[simp] theorem State.raise_pcnt (e : Exc) (s : State) : (s.raise e).pcnt = s.pcnt := by cases e; rfl
@[simp] theorem State.raise_tcnt (e : Exc) (s : State) : (s.raise e).tcnt = s.tcnt := by cases e; rfl
@[simp] theorem State.raise_cmd (e : Exc) (s : State) : (s.raise e).cmd = s.cmd := by cases e; rfl
@[simp] theorem State.raise_dev (e : Exc) (s : State) : (s.raise e).dev = s.dev := by cases e; rfl
@[simp] theorem State.raise_err (e : Exc) (s : State) : (s.raise e).err = true := by cases e; rfl
@[simp] theorem State.raise_pin (e : Exc) (s : State) : (s.raise e).pin = s.pin := by cases e; rfl
@[simp] theorem State.raise_cfg (e : Exc) (s : State) : (s.raise e).cfg = s.cfg := by cases e; rfl
@[simp] theorem State.raise_script (e : Exc) (s : State) : (s.raise e).script = s.script := by cases e; rfl
@[simp] theorem State.raise_pinLog (e : Exc) (s : State) : (s.raise e).pinLog = s.pinLog := by cases e; rfl

/-! ### `State.toReset` -/

@[simp] theorem State.toReset_phase (s : State) : s.toReset.phase = .idle := rfl
@[simp] theorem State.toReset_sym (s : State) : s.toReset.sym = 0 := rfl
@[simp] theorem State.toReset_pcnt (s : State) : s.toReset.pcnt = 0#7 := rfl
@[simp] theorem State.toReset_tcnt (s : State) : s.toReset.tcnt = 0 := rfl
@[simp] theorem State.toReset_cmd (s : State) : s.toReset.cmd = 0#8 := rfl
@[simp] theorem State.toReset_dev (s : State) : s.toReset.dev = 0#8 := rfl
@[simp] theorem State.toReset_err (s : State) : s.toReset.err = false := rfl
@[simp] theorem State.toReset_pin (s : State) : s.toReset.pin = .low := rfl
@[simp] theorem State.toReset_cfg (s : State) : s.toReset.cfg = s.cfg := rfl
@[simp] theorem State.toReset_script (s : State) : s.toReset.script = s.script := rfl
@[simp] theorem State.toReset_pinLog (s : State) : s.toReset.pinLog = s.pinLog := rfl

/-! ### `State.enterGap`, `State.beginSymbol`, `State.accept`, `State.transfer`: the fields they leave or always write -/

@[simp] theorem State.enterGap_sym (s : State) : s.enterGap.sym = s.sym := by
  unfold State.enterGap; split <;> rfl
@[simp] theorem State.enterGap_pcnt (s : State) : s.enterGap.pcnt = s.pcnt := by
  unfold State.enterGap; split <;> rfl
@[simp] theorem State.enterGap_cmd (s : State) : s.enterGap.cmd = s.cmd := by
  unfold State.enterGap; split <;> rfl
@[simp] theorem State.enterGap_dev (s : State) : s.enterGap.dev = s.dev := by
  unfold State.enterGap; split <;> rfl
@[simp] theorem State.enterGap_err (s : State) : s.enterGap.err = s.err := by
  unfold State.enterGap; split <;> rfl
@[simp] theorem State.enterGap_pin (s : State) : s.enterGap.pin = s.pin := by
  unfold State.enterGap; split <;> rfl
@[simp] theorem State.enterGap_cfg (s : State) : s.enterGap.cfg = s.cfg := by
  unfold State.enterGap; split <;> rfl
@[simp] theorem State.enterGap_script (s : State) : s.enterGap.script = s.script := by
  unfold State.enterGap; split <;> rfl
@[simp] theorem State.enterGap_pinLog (s : State) : s.enterGap.pinLog = s.pinLog := by
  unfold State.enterGap; split <;> rfl
@[simp] theorem State.beginSymbol_sym (s : State) : s.beginSymbol.sym = s.sym := by
  unfold State.beginSymbol; split <;> rfl
@[simp] theorem State.beginSymbol_cmd (s : State) : s.beginSymbol.cmd = s.cmd := by
  unfold State.beginSymbol; split <;> rfl
@[simp] theorem State.beginSymbol_dev (s : State) : s.beginSymbol.dev = s.dev := by
  unfold State.beginSymbol; split <;> rfl
@[simp] theorem State.beginSymbol_err (s : State) : s.beginSymbol.err = s.err := by
  unfold State.beginSymbol; split <;> rfl
@[simp] theorem State.beginSymbol_cfg (s : State) : s.beginSymbol.cfg = s.cfg := by
  unfold State.beginSymbol; split <;> rfl
@[simp] theorem State.beginSymbol_script (s : State) : s.beginSymbol.script = s.script := by
  unfold State.beginSymbol; split <;> rfl
@[simp] theorem State.beginSymbol_pinLog (s : State) : s.beginSymbol.pinLog = s.pinLog := by
  unfold State.beginSymbol; split <;> rfl
@[simp] theorem State.accept_sym (d c : Byte) (s : State) : (s.accept d c).sym = 0 := by
  simp [State.accept]
@[simp] theorem State.accept_cmd (d c : Byte) (s : State) : (s.accept d c).cmd = c := by
  simp [State.accept]
@[simp] theorem State.accept_dev (d c : Byte) (s : State) : (s.accept d c).dev = d := by
  simp [State.accept]
@[simp] theorem State.accept_err (d c : Byte) (s : State) : (s.accept d c).err = false := by
  simp [State.accept]
@[simp] theorem State.accept_cfg (d c : Byte) (s : State) : (s.accept d c).cfg = s.cfg := by
  simp [State.accept]
@[simp] theorem State.accept_script (d c : Byte) (s : State) : (s.accept d c).script = s.script := by
  simp [State.accept]
@[simp] theorem State.accept_pinLog (d c : Byte) (s : State) : (s.accept d c).pinLog = s.pinLog := by
  simp [State.accept]
@[simp] theorem State.transfer_cfg (d c : Byte) (s : State) : (s.transfer d c).cfg = s.cfg := by
  unfold State.transfer; split <;> simp
@[simp] theorem State.transfer_script (d c : Byte) (s : State) : (s.transfer d c).script = s.script := by
  unfold State.transfer; split <;> simp
@[simp] theorem State.transfer_pinLog (d c : Byte) (s : State) : (s.transfer d c).pinLog = s.pinLog := by
  unfold State.transfer; split <;> simp

/-! ### `State.consume` -/

@[simp] theorem State.consume_phase (s : State) : s.consume.phase = s.phase := by
  unfold State.consume; split <;> first | rfl | (split <;> rfl)
@[simp] theorem State.consume_sym (s : State) : s.consume.sym = s.sym := by
  unfold State.consume; split <;> first | rfl | (split <;> rfl)
@[simp] theorem State.consume_pcnt (s : State) : s.consume.pcnt = s.pcnt := by
  unfold State.consume; split <;> first | rfl | (split <;> rfl)
@[simp] theorem State.consume_tcnt (s : State) : s.consume.tcnt = s.tcnt := by
  unfold State.consume; split <;> first | rfl | (split <;> rfl)
@[simp] theorem State.consume_cmd (s : State) : s.consume.cmd = s.cmd := by
  unfold State.consume; split <;> first | rfl | (split <;> rfl)
@[simp] theorem State.consume_dev (s : State) : s.consume.dev = s.dev := by
  unfold State.consume; split <;> first | rfl | (split <;> rfl)
@[simp] theorem State.consume_err (s : State) : s.consume.err = s.err := by
  unfold State.consume; split <;> first | rfl | (split <;> rfl)
@[simp] theorem State.consume_pin (s : State) : s.consume.pin = s.pin := by
  unfold State.consume; split <;> first | rfl | (split <;> rfl)
@[simp] theorem State.consume_cfg (s : State) : s.consume.cfg = s.cfg := by
  unfold State.consume; split <;> first | rfl | (split <;> rfl)
@[simp] theorem State.consume_pinLog (s : State) : s.consume.pinLog = s.pinLog := by
  unfold State.consume; split <;> first | rfl | (split <;> rfl)

theorem State.consume_ports {s : State} {p : Ports} {rest : List HostAction} (h : s.script = .ports p :: rest) :
    s.consume = { s with script := rest } := by
  simp [State.consume, h]

theorem State.consume_nil {s : State} (h : s.script = []) : s.consume = s := by
  simp [State.consume, h]

/-- What is left of the script was there before. -/
theorem State.mem_consume_script {s : State} {a : HostAction} (h : a ∈ s.consume.script) : a ∈ s.script := by
  unfold State.consume at h
  split at h
  · exact h
  · next hs => exact hs ▸ List.mem_cons_of_mem _ h
  all_goals
    next hs =>
      split at h
      · exact hs ▸ List.mem_cons_of_mem _ h
      · exact h

end Sys2Proof.Machine
end

