-- ==== Sys2Proof/Laws/Waveform.lean ====
section
/-!
SUPPORT. The small laws of waveforms and of the record of the pin.
-/

namespace Sys2Proof.Machine

@[simp] theorem joinFront_zero (l : Level) (w : Waveform) : joinFront ⟨l, 0⟩ w = w := by
  simp [joinFront]

@[simp] theorem pushLevel_zero (l : Level) (log : Waveform) : pushLevel l 0 log = log := by
  simp [pushLevel]

/-- Two stretches of time at one level are one stretch. -/
theorem pushLevel_pushLevel (l : Level) (m n : Nat) (log : Waveform) :
    pushLevel l n (pushLevel l m log) = pushLevel l (m + n) log := by
  rcases Nat.eq_zero_or_pos m with rfl | hm
  · simp
  rcases Nat.eq_zero_or_pos n with rfl | hn
  · simp
  have hm0 : m ≠ 0 := by omega
  have hn0 : n ≠ 0 := by omega
  cases log with
  | nil => simp [pushLevel, joinFront, hm0, hn0, Nat.add_comm]
  | cons h r =>
    by_cases hl : h.level = l
    · simp [pushLevel, joinFront, hm0, hn0, hl]; omega
    · simp [pushLevel, joinFront, hm0, hn0, hl]; omega

@[simp] theorem pushWave_nil (log : Waveform) : pushWave [] log = log := rfl

@[simp] theorem pushWave_cons (g : Segment) (w log : Waveform) :
    pushWave (g :: w) log = pushWave w (pushLevel g.level g.ticks log) := rfl

theorem pushWave_append (v w log : Waveform) : pushWave (v ++ w) log = pushWave w (pushWave v log) := by
  induction v generalizing log with
  | nil => rfl
  | cons g v ih => simp [ih]

@[simp] theorem dur_nil : dur [] = 0 := rfl

@[simp] theorem dur_cons (g : Segment) (w : Waveform) : dur (g :: w) = g.ticks + dur w := rfl

@[simp] theorem dur_append (v w : Waveform) : dur (v ++ w) = dur v + dur w := by
  induction v with
  | nil => simp
  | cons g v ih => simp [ih]; omega

@[simp] theorem dur_joinFront (g : Segment) (w : Waveform) : dur (joinFront g w) = g.ticks + dur w := by
  unfold joinFront
  split
  · next h => simp [h]
  · cases w with
    | nil => simp
    | cons h r =>
      dsimp only
      split
      · simp; omega
      · simp

@[simp] theorem dur_pushLevel (l : Level) (n : Nat) (log : Waveform) : dur (pushLevel l n log) = n + dur log := by
  simp [pushLevel]

/-- Pushing a waveform lengthens the record by the waveform's duration. -/
theorem dur_pushWave (w log : Waveform) : dur (pushWave w log) = dur w + dur log := by
  induction w generalizing log with
  | nil => simp
  | cons g w ih => simp [ih]; omega

@[simp] theorem dur_rep (n : Nat) (w : Waveform) : dur (rep n w) = n * dur w := by
  induction n with
  | zero => simp [rep]
  | succ n ih => simp [rep, ih, Nat.add_mul]; omega

theorem isNormal_tail {g : Segment} {w : Waveform} (h : isNormal (g :: w) = true) : isNormal w = true := by
  cases w with
  | nil => rfl
  | cons k r => simp only [isNormal, Bool.and_eq_true] at h; exact h.2

/-- Joining a segment in front keeps the normal form. -/
theorem isNormal_joinFront (g : Segment) {w : Waveform} (h : isNormal w = true) : isNormal (joinFront g w) = true := by
  unfold joinFront
  split
  · exact h
  · next hg =>
    cases w with
    | nil => simpa [isNormal] using hg
    | cons k r =>
      dsimp only
      split
      · next hl =>
        cases r with
        | nil => simp [isNormal]; omega
        | cons k' r' =>
          simp only [isNormal, Bool.and_eq_true, bne_iff_ne, ne_eq] at h ⊢
          exact ⟨⟨by omega, by rw [← hl]; exact h.1.2⟩, h.2⟩
      · next hl =>
        simp only [isNormal, Bool.and_eq_true, bne_iff_ne, ne_eq]
        exact ⟨⟨hg, fun e => hl e.symm⟩, h⟩

theorem isNormal_pushLevel (l : Level) (n : Nat) {log : Waveform} (h : isNormal log = true) :
    isNormal (pushLevel l n log) = true := isNormal_joinFront _ h

theorem isNormal_pushWave (w : Waveform) {log : Waveform} (h : isNormal log = true) :
    isNormal (pushWave w log) = true := by
  induction w generalizing log with
  | nil => exact h
  | cons g w ih => exact ih (isNormal_pushLevel _ _ h)

/-- `rep` with one more copy at the end. -/
theorem rep_succ_end (n : Nat) (w : Waveform) : rep (n + 1) w = rep n w ++ w := by
  induction n with
  | zero => simp [rep]
  | succ n ih =>
    show w ++ rep (n + 1) w = (w ++ rep n w) ++ w
    rw [ih, List.append_assoc]

theorem waveBits_append (p : Profile) (as bs : List Bool) :
    waveBits p (as ++ bs) = waveBits p as ++ waveBits p bs := by
  induction as with
  | nil => rfl
  | cons b as ih => simp [waveBits, ih]

end Sys2Proof.Machine
end

