-- ==== Sys2Proof/Laws/Ops.lean ====
section
/-!
SUPPORT. For each shared operation one lemma that says everything it does; later proofs cite it instead of unfolding.
-/

namespace Sys2Proof

/-! ## What a configuration's profile guarantees (00_scope.md R11) -/

/-- The invariants of 00_scope.md R11, as propositions. -/
theorem Profile.valid_iff (p : Profile) : p.valid = true ↔
    p.nZero.toNat < p.nOne.toNat ∧ 0 < p.nZero.toNat ∧ 0 < p.nStart.toNat ∧ 0 < p.tHigh.toNat ∧ 0 < p.tLow.toNat
      ∧ 0 < p.tSpace.toNat ∧ p.wCmd.toNat ≤ 8 ∧ p.wDev.toNat ≤ 8 := by
  simp [Profile.valid, BitVec.lt_def, and_assoc]

/-- `SYM` can hold the index of the last symbol (log 3). -/
theorem Config.lastSym_lt (c : Config) : c.profile.lastSym < 16 := by
  simpa [Profile.indexable] using c.indexable

/-- `SYM + 1` does not wrap while a symbol is left. -/
theorem Config.toNat_sym_succ (c : Config) {s : BitVec 4} (h : s.toNat < c.profile.lastSym) :
    (s + 1#4).toNat = s.toNat + 1 := by
  have := c.lastSym_lt
  simp only [BitVec.toNat_add, BitVec.toNat_ofNat]
  omega

end Sys2Proof

namespace Sys2Proof.Machine

/-! ## Burst lengths -/

/-- The burst of a data bit is never empty: `N_ONE > N_ZERO > 0` (00_scope.md R11). -/
theorem bitBurst_ne_zero {p : Profile} (h : p.valid = true) (b : Bool) : bitBurst p b ≠ 0#7 := by
  have h' := p.valid_iff.mp h
  intro e
  have e' := congrArg BitVec.toNat e
  cases b <;> simp [bitBurst] at e' <;> omega

/-- No symbol has an empty burst (00_scope.md R11). -/
theorem pulses_ne_zero {p : Profile} (h : p.valid = true) (s : BitVec 4) (c d : Byte) : pulses p s c d ≠ 0#7 := by
  unfold pulses
  split
  · have h' := p.valid_iff.mp h
    intro e
    have e' := congrArg BitVec.toNat e
    simp at e'
    omega
  · exact bitBurst_ne_zero h _

/-! ## The start of a symbol and a request -/

/-- `begin_symbol()` in a profile that a configuration admits, where no burst is empty (43_transmit.md R179). -/
theorem State.beginSymbol_eq (s : State) :
    s.beginSymbol = { s with
      phase := .high, pin := .high, tcnt := s.cfg.profile.tHigh.toNat
      pcnt := pulses s.cfg.profile s.sym s.cmd s.dev } := by
  simp [State.beginSymbol, pulses_ne_zero s.cfg.valid, State.enterHigh]

/-- A pair is legal when `device <= 31` and `command <= 127` (30_encoding.md R72). -/
theorem legalPair_iff (d c : Byte) : legalPair d c = true ↔ d.toNat ≤ 31 ∧ c.toNat ≤ 127 := by
  simp [legalPair]

/-- `OutOfRange` is raised for `req_command > 2^W_CMD - 1` or `req_device > 2^W_DEV - 1` (60_exceptions.md R201). -/
theorem outOfRange_iff (p : Profile) (d c : Byte) :
    outOfRange p d c = true ↔ c.toNat > 2 ^ p.wCmd.toNat - 1 ∨ d.toNat > 2 ^ p.wDev.toNat - 1 := by
  simp [outOfRange]

/-- The range check of `SIRC12` is the test for a legal pair (60_exceptions.md R201, 30_encoding.md R72). -/
theorem outOfRange_sirc12 (d c : Byte) : outOfRange sirc12 d c = !legalPair d c := by
  rw [Bool.eq_iff_iff, outOfRange_iff, Bool.not_eq_true', ← Bool.not_eq_true, legalPair_iff]
  simp only [sirc12, BitVec.reduceToNat, Nat.reducePow, Nat.reduceSub]
  omega

theorem State.transfer_refused {s : State} {d c : Byte} (hp : s.cfg.rangePolicy = .reject)
    (hr : outOfRange s.cfg.profile d c = true) : s.transfer d c = { s with err := true } := by
  simp [State.transfer, hp, hr, State.raise, State.setErr]

theorem State.transfer_accepted {s : State} {d c : Byte}
    (h : ¬(s.cfg.rangePolicy = .reject ∧ outOfRange s.cfg.profile d c = true)) : s.transfer d c = s.accept d c := by
  rw [State.transfer, if_neg h]

/-- An accepted request (43_transmit.md R172, R179). -/
theorem State.accept_eq (d c : Byte) (s : State) :
    s.accept d c = { s with
      dev := d, cmd := c, err := false, sym := 0#4, phase := .high, pin := .high
      tcnt := s.cfg.profile.tHigh.toNat, pcnt := s.cfg.profile.nStart } := by
  rw [State.accept, State.beginSymbol_eq]
  rfl

/-! ## Time -/

/-- `m` ticks, then `n` ticks, with nothing written in between. -/
theorem State.elapse_elapse (m n : Nat) (s : State) : (s.elapse m).elapse n = s.elapse (m + n) := by
  simp [State.elapse, pushLevel_pushLevel]

/-! ## The operations realised as a whole -/

/-- `PULSE` puts its waveform on the pin and leaves the pin low (40_carrier.md R103). -/
theorem State.emitPulse_eq (s : State) :
    s.emitPulse = { s with pin := .low, tcnt := 0, pinLog := pushWave (wavePulse s.cfg.profile) s.pinLog } := rfl

/-- `n + 1` pulses (40_carrier.md R106). -/
theorem State.emitPulses_succ (n : Nat) (s : State) :
    State.emitPulses (n + 1) s = { s with
      pin := .low, tcnt := 0
      pinLog := pushWave (rep (n + 1) (wavePulse s.cfg.profile)) s.pinLog } := by
  induction n generalizing s with
  | zero => simp [State.emitPulses, State.emitPulse_eq, rep]
  | succ n ih =>
    rw [State.emitPulses, ih, State.emitPulse_eq]
    simp only [rep, pushWave_append]

/-- `BURST 0` writes nothing (40_carrier.md R107). -/
@[simp] theorem State.emitBurst_zero (s : State) : s.emitBurst 0#7 = s := rfl

/-- `BURST n`, `n >= 1` (40_carrier.md R106). -/
theorem State.emitBurst_eq {n : BitVec 7} (hn : n ≠ 0#7) (s : State) :
    s.emitBurst n = { s with
      pin := .low, tcnt := 0, pcnt := 0#7
      pinLog := pushWave (waveBurst s.cfg.profile n) s.pinLog } := by
  have hpos : n.toNat ≠ 0 := fun h => hn (BitVec.eq_of_toNat_eq (by simpa using h))
  obtain ⟨k, hk⟩ := Nat.exists_eq_succ_of_ne_zero hpos
  simp only [State.emitBurst, if_neg hn, waveBurst, hk, Nat.succ_eq_add_one, State.emitPulses_succ]

/-- `SYM n, s` (41_bit.md R123): `PCNT` is written by a burst of one or more cycles only. -/
theorem State.emitSymbol_eq (n : BitVec 7) (w : BitVec 10) (s : State) :
    s.emitSymbol n w = { s with
      pin := .low, tcnt := 0, pcnt := if n = 0#7 then s.pcnt else 0#7
      pinLog := pushWave (waveSym s.cfg.profile n w) s.pinLog } := by
  by_cases hn : n = 0#7
  · subst hn
    simp [State.emitSymbol, State.writePin, State.delay, State.elapse, waveSym, waveBurst, rep]
  · simp [State.emitSymbol, State.emitBurst_eq hn, State.writePin, State.delay, State.elapse, waveSym, hn,
      pushWave_append]

/-- `SPACE` (41_bit.md R121). -/
theorem State.emitSpace_eq (s : State) :
    s.emitSpace = { s with pin := .low, tcnt := 0, pinLog := pushWave (waveSpace s.cfg.profile) s.pinLog } := rfl

@[simp] theorem State.emitPulses_cfg (n : Nat) (s : State) : (State.emitPulses n s).cfg = s.cfg := by
  cases n with
  | zero => rfl
  | succ n => rw [State.emitPulses_succ]

@[simp] theorem State.emitBurst_cfg (n : BitVec 7) (s : State) : (s.emitBurst n).cfg = s.cfg := by
  unfold State.emitBurst; split <;> simp

/-- A burst from the profile and the space of the profile are the symbol of both. -/
theorem State.emitBurst_emitSpace (n : BitVec 7) (s : State) :
    (s.emitBurst n).emitSpace = s.emitSymbol n s.cfg.profile.tSpace := by
  simp [State.emitSpace, State.emitSymbol]

/-- `BIT b` (41_bit.md R124). -/
theorem State.emitBit_eq (b : Bool) (s : State) :
    s.emitBit b = s.emitSymbol (bitBurst s.cfg.profile b) s.cfg.profile.tSpace :=
  State.emitBurst_emitSpace _ _

/-- `START` (42_frame.md R142). -/
theorem State.emitStart_eq (s : State) : s.emitStart = s.emitSymbol s.cfg.profile.nStart s.cfg.profile.tSpace :=
  State.emitBurst_emitSpace _ _

/-- One data bit or more, one after the other (42_frame.md R143, R144): `SYM` ends at the slot of the last. -/
theorem State.emitBits_eq (slot : Nat) (b : Bool) (bs : List Bool) (s : State) :
    State.emitBits slot (b :: bs) s = { s with
      pin := .low, tcnt := 0, pcnt := 0#7
      sym := BitVec.ofNat 4 (slot + bs.length)
      pinLog := pushWave (waveBits s.cfg.profile (b :: bs)) s.pinLog } := by
  induction bs generalizing slot b s with
  | nil =>
    simp [State.emitBits, State.emitBit_eq, State.emitSymbol_eq, bitBurst_ne_zero s.cfg.valid, waveBits, waveBit]
  | cons b' bs ih =>
    rw [State.emitBits, ih]
    simp [State.emitBit_eq, State.emitSymbol_eq, waveBits, waveBit, pushWave_append, Nat.add_assoc, Nat.add_comm 1]

/-- `GAP` (43_transmit.md R176). -/
theorem State.emitGap_eq (s : State) :
    s.emitGap = { s with phase := .idle, tcnt := 0, pinLog := pushLevel s.pin s.cfg.gapUs s.pinLog } := rfl

end Sys2Proof.Machine
end

