-- ==== Sys2Proof/Laws/PerInstr.lean ====
section
/-!
SUPPORT. Statements made for every instruction, one lemma per constructor (LAWS.json).
-/

namespace Sys2Proof.Laws.Format

/-- An instruction is encoded in the format that its row of the opcode table gives (30_encoding.md R70, R80). -/
def Statement (i : Instr) : Prop := (encode i).format = i.format

theorem tx (d c : Byte) : Statement (.tx d c) := rfl
theorem txWide (d c : Byte) : Statement (.txWide d c) := rfl
theorem symStart : Statement .symStart := rfl
theorem symOne : Statement .symOne := rfl
theorem symZero : Statement .symZero := rfl
theorem sym (n : BitVec 7) (s : BitVec 10) : Statement (.sym n s) := rfl
theorem phIdle : Statement .phIdle := rfl
theorem phHigh : Statement .phHigh := rfl
theorem phLow : Statement .phLow := rfl
theorem phSpace : Statement .phSpace := rfl
theorem phGap : Statement .phGap := rfl
theorem frame (d c : Byte) : Statement (.frame d c) := rfl
theorem pinw (v : Level) : Statement (.pinw v) := rfl
theorem dly (n : Nat) : Statement (.dly n) := rfl
theorem dlyms (n : Nat) : Statement (.dlyms n) := rfl
theorem pulse : Statement .pulse := rfl
theorem burst (n : BitVec 7) : Statement (.burst n) := rfl
theorem space : Statement .space := rfl
theorem bit (b : Bool) : Statement (.bit b) := rfl
theorem start : Statement .start := rfl
theorem cmdBits (c : Byte) : Statement (.cmdBits c) := rfl
theorem devBits (d : Byte) : Statement (.devBits d) := rfl
theorem gap : Statement .gap := rfl
theorem reset : Statement .reset := rfl

end Sys2Proof.Laws.Format
end

