-- ==== Sys2Proof/Laws/Step.lean ====
section
/-!
SUPPORT. What one step can do, said once: the three kinds of tick and the directly called operation.
-/

namespace Sys2Proof.Machine

/-- `exec` always answers a next state: nothing stops the block (43_transmit.md R187). -/
theorem exec_next (i : Instr) (s : State) : ∃ t, exec i s = .next t := by
  cases i <;> exact ⟨_, rfl⟩

/-- The bits of a request word: the command in the low byte, the device in the high byte (30_encoding.md R71). -/
theorem encodeReq_getLsbD (d c : Byte) (i : Nat) :
    (encodeReq d c).getLsbD i = if i < 8 then c.getLsbD i else d.getLsbD (i - 8) := by
  have h := BitVec.getLsbD_append (x := d) (y := c) (i := i)
  rw [show encodeReq d c = (d ++ c) from rfl]
  exact h.trans (by split <;> simp_all)

@[simp] theorem extract_device (d c : Byte) : (encodeReq d c).extractLsb' 8 8 = d := by
  apply BitVec.eq_of_getLsbD_eq
  intro i hi
  simp [encodeReq_getLsbD, hi]

@[simp] theorem extract_command (d c : Byte) : (encodeReq d c).extractLsb' 0 8 = c := by
  apply BitVec.eq_of_getLsbD_eq
  intro i hi
  simp [encodeReq_getLsbD, hi]

/-- A request word decodes to one of the two request operations with the words' own values (30_encoding.md R71). -/
theorem decodeReq_encodeReq (d c : Byte) :
    decodeReq (encodeReq d c) = .tx d c ∨ decodeReq (encodeReq d c) = .txWide d c := by
  unfold decodeReq
  split <;> simp

/-- The phase register is decoded to the operation of the phase (30_encoding.md R75). -/
theorem exec_phase (s t : State) : ∃ i, decodePhase s.phase.code = .ok i ∧ (t.phase = s.phase →
    exec i t = .next (t.elapse 1).phaseTick) := by
  cases h : s.phase
  · exact ⟨.phIdle, rfl, fun ht => by simp [exec, execPhIdle, State.phaseTick, ht]⟩
  · exact ⟨.phHigh, rfl, fun ht => by simp [exec, execPhHigh, State.phaseTick, ht]⟩
  · exact ⟨.phLow, rfl, fun ht => by simp [exec, execPhLow, State.phaseTick, ht]⟩
  · exact ⟨.phSpace, rfl, fun ht => by simp [exec, execPhSpace, State.phaseTick, ht]⟩
  · exact ⟨.phGap, rfl, fun ht => by simp [exec, execPhGap, State.phaseTick, ht]⟩

/-- In a tick the operation is the one that the registers and the ports show. -/
theorem fetch_of_tick {s : State} (h : s.TickNext) : s.fetch = s.portCode s.portsNow := by
  unfold State.TickNext State.nextIsTick at h
  unfold State.fetch State.portsNow
  split at h <;> simp_all [State.readyFlag]

/-- A tick with `rst == 1` (43_transmit.md R180, first arm). -/
theorem step_of_reset {s : State} (h : s.TickNext) (hr : s.portsNow.rst = true) :
    step s = .next (s.consume.elapse 1).toReset := by
  simp [step, fetch_of_tick h, State.portCode, hr, decode, exec, execReset]

/-- A tick in which a request is transferred (43_transmit.md R171, R180). -/
theorem step_of_transfer {s : State} (h : s.TickNext) (hr : s.portsNow.rst = false) (hi : s.phase = .idle)
    (hv : s.portsNow.reqValid = true) :
    step s = .next ((s.consume.elapse 1).transfer s.portsNow.reqDevice s.portsNow.reqCommand) := by
  rw [step, fetch_of_tick h]
  rcases decodeReq_encodeReq s.portsNow.reqDevice s.portsNow.reqCommand with hd | hd <;>
    simp [State.portCode, hr, hi, hv, decode, hd, exec, execTx, execTxWide, State.present]

/-- Any other tick is that of the phase in progress (43_transmit.md R180, R175, R177). -/
theorem step_of_phase {s : State} (h : s.TickNext) (hr : s.portsNow.rst = false)
    (hp : s.phase ≠ .idle ∨ s.portsNow.reqValid = false) :
    step s = .next (s.consume.elapse 1).phaseTick := by
  have hc : s.portCode s.portsNow = .phase3 s.phase.code := by
    rcases hp with hp | hp <;> simp [State.portCode, hr, hp]
  obtain ⟨i, hd, he⟩ := exec_phase s s.consume
  simp [step, fetch_of_tick h, hc, decode, hd, he]

/-- Everything that a step can do: a tick of one of the three kinds, or the whole of a directly called operation. -/
theorem step_cases {s t : State} (h : step s = .next t) :
    (s.TickNext ∧ s.portsNow.rst = true ∧ t = (s.consume.elapse 1).toReset)
    ∨ (s.TickNext ∧ s.portsNow.rst = false ∧ s.phase = .idle ∧ s.portsNow.reqValid = true
        ∧ t = (s.consume.elapse 1).transfer s.portsNow.reqDevice s.portsNow.reqCommand)
    ∨ (s.TickNext ∧ s.portsNow.rst = false ∧ (s.phase ≠ .idle ∨ s.portsNow.reqValid = false)
        ∧ t = (s.consume.elapse 1).phaseTick)
    ∨ (s.phase = .idle ∧ s.nextIsTick = false ∧ ∃ i, decode s.fetch = .ok i ∧ exec i s.consume = .next t) := by
  by_cases hn : s.TickNext
  · cases hr : s.portsNow.rst
    · by_cases hp : s.phase = .idle ∧ s.portsNow.reqValid = true
      · rw [step_of_transfer hn hr hp.1 hp.2] at h
        exact .inr (.inl ⟨hn, rfl, hp.1, hp.2, by simpa using h.symm⟩)
      · have hp' : s.phase ≠ .idle ∨ s.portsNow.reqValid = false := by
          rcases Decidable.not_and_iff_or_not.mp hp with hp | hp
          · exact .inl hp
          · exact .inr (by simpa using hp)
        rw [step_of_phase hn hr hp'] at h
        exact .inr (.inr (.inl ⟨hn, rfl, hp', by simpa using h.symm⟩))
    · rw [step_of_reset hn hr] at h
      exact .inl ⟨hn, rfl, by simpa using h.symm⟩
  · have hf : s.nextIsTick = false := by simpa [State.TickNext] using hn
    have hi : s.phase = .idle := by
      unfold State.nextIsTick at hf
      split at hf <;> simp_all [State.readyFlag]
    refine .inr (.inr (.inr ⟨hi, hf, ?_⟩))
    rw [step] at h
    split at h
    · next i hd => exact ⟨i, hd, h⟩
    · cases h

/-- A directly called operation is one of the formats no port carries. -/
theorem call_format {s : State} {i : Instr} (hf : s.nextIsTick = false) (hd : decode s.fetch = .ok i) :
    i.format = .sym17 ∨ i.format = .wire13 ∨ i.format = .written := by
  unfold State.nextIsTick State.readyFlag at hf
  unfold State.fetch at hd
  split at hf
  · cases hf
  · cases hf
  · next w _ hs =>
    have hi : s.phase = .idle := by simpa using hf
    simp only [hs, hi, if_true, decode, Except.ok.injEq, decodeSym] at hd
    subst hd
    left
    split
    · rfl
    split
    · rfl
    split <;> rfl
  · next slots _ hs =>
    have hi : s.phase = .idle := by simpa using hf
    simp only [hs, hi, if_true, decode] at hd
    unfold decodeWire at hd
    right; left
    split at hd
    · cases hd
    split at hd
    · cases hd
    split at hd
    · cases hd
    split at hd
    · cases hd
    · cases hd; rfl
  · next j _ hs =>
    have hi : s.phase = .idle := by simpa using hf
    simp only [hs, hi, if_true, decode] at hd
    split at hd
    · next hj => cases hd; exact .inr (.inr hj)
    · cases hd

/-! ## Runs -/

@[simp] theorem run_zero (s : State) : run 0 s = .next s := rfl

/-- A run goes on from its first step. -/
theorem run_succ {s t : State} (h : step s = .next t) (k : Nat) : run (k + 1) s = run k t := by rw [run, h]

/-- A run of `j + k` steps is `k` steps after `j` steps. -/
theorem run_add {j : Nat} {s t : State} (h : run j s = .next t) (k : Nat) : run (j + k) s = run k t := by
  induction j generalizing s with
  | zero => cases h; rw [Nat.zero_add]
  | succ j ih =>
    cases hs : step s with
    | next u =>
      rw [run_succ hs] at h
      rw [Nat.add_right_comm, run_succ hs, ih h]
    | fault r => cases r
    | refused r => rw [run, hs] at h; cases h

/-- `run` is the run of the host's interface. -/
theorem run_eq_core (k : Nat) (s : State) : run k s = Host.Core.run core k s := by
  induction k generalizing s with
  | zero => rfl
  | succ k ih =>
    cases hs : step s with
    | next t => rw [run_succ hs, ih]; simp only [Host.Core.run, show core.step s = .next t from hs]; rfl
    | fault r => cases r
    | refused r => simp only [run, hs, Host.Core.run, show core.step s = .refused r from hs]; rfl

end Sys2Proof.Machine
end

