-- ==== Sys2Proof/Tests/Slice0.lean ====
section
/-!
SUPPORT. The model's own tests. Expected results come from spec/95_test_vectors.md (`V..`, `P..`) or are worked out by hand from
the rule named; "witness" theorems show that a statement's hypotheses can be met, at boundary values.
-/

namespace Sys2Proof.Tests

open Sys2Proof Sys2Proof.Machine

/-! ## Helpers -/

/-- `SIRC12` with this `GAP_US` and policy. -/
def cfg (gap : Nat) (policy : RangePolicy) : Config := ⟨sirc12, gap, policy, 1, by decide, by decide⟩

/-- `S_reset` with a configuration whose `GAP_US` is a number. -/
def idle (c : Config) : State := { State.reset with cfg := c }

/-- The usual configuration of the vectors: `G` = 1000, `REJECT`. -/
def r1000 : Config := cfg 1000 .reject

/-- A state of V40's table: the frame of (1, 0x15) in progress. -/
def busy (ph : Phase) (sym : BitVec 4) (pcnt : BitVec 7) (tcnt : Nat) (pin : Level) : State :=
  { idle r1000 with phase := ph, sym := sym, pcnt := pcnt, tcnt := tcnt, pin := pin, cmd := 0x15#8, dev := 0x01#8 }

/-- The host does this next. -/
def doing (a : HostAction) (s : State) : State := { s with script := a :: s.script }

/-- The host presents a request. -/
def asking (d c : Byte) (s : State) : State := doing (.ports (Ports.request d c)) s

/-- The eight registers in the order of V40's table. -/
structure Regs where
  phase : Phase
  sym : Nat
  pcnt : Nat
  tcnt : Nat
  cmd : Nat
  dev : Nat
  err : Bool
  pin : Level
deriving DecidableEq, Repr

/-- The registers of a state. -/
def regs (s : State) : Regs :=
  ⟨s.phase, s.sym.toNat, s.pcnt.toNat, s.tcnt, s.cmd.toNat, s.dev.toNat, s.err, s.pin⟩

/-- What an outcome shows of its next state. -/
def seen {α : Type} (f : State → α) : Host.Outcome State Fault Refusal → Option α
  | .next s => some (f s)
  | .fault _ => none
  | .refused _ => none

/-! ## Well-formedness refuses each ill-formed term -/

theorem test_wf_tx_wide_command : (Instr.tx 0x01#8 0x80#8).wellFormed = false := by decide
theorem test_wf_tx_wide_device : (Instr.tx 0x20#8 0x15#8).wellFormed = false := by decide
theorem test_wf_txWide_legal : (Instr.txWide 31#8 127#8).wellFormed = false := by decide
theorem test_wf_sym_named : (Instr.sym 96#7 600#10).wellFormed = false
    ∧ (Instr.sym 48#7 600#10).wellFormed = false ∧ (Instr.sym 24#7 600#10).wellFormed = false := by decide
theorem test_wf_frame_wide : (Instr.frame 0x20#8 0#8).wellFormed = false ∧ (Instr.frame 0#8 0x80#8).wellFormed = false := by
  decide
theorem test_wf_accepts : (Instr.tx 31#8 127#8).wellFormed = true ∧ (Instr.txWide 32#8 127#8).wellFormed = true
    ∧ (Instr.sym 96#7 599#10).wellFormed = true ∧ (Instr.frame 31#8 127#8).wellFormed = true := by decide

/-! ## Decoding: words written out bit by bit from 30_encoding.md (V50 to V56) -/

/-- `REQ16`: device in bits 15 to 8, command in bits 7 to 0 (R71); V50, V51. -/
theorem test_decode_tx : decodeTableWord 16 0b00000001_00010101 = some (.tx 1#8 21#8)
    ∧ decodeTableWord 16 0b00011111_01111111 = some (.tx 31#8 127#8)
    ∧ decodeTableWord 16 0 = some (.tx 0#8 0#8) := by decide
/-- One of bits 15, 14, 13, 7 set (R81); V52. -/
theorem test_decode_txWide : decodeTableWord 16 0b00000001_10010101 = some (.txWide 1#8 149#8)
    ∧ decodeTableWord 16 0b00100000_00010101 = some (.txWide 32#8 21#8)
    ∧ decodeTableWord 16 0b01000000_00000000 = some (.txWide 64#8 0#8)
    ∧ decodeTableWord 16 0b10000000_00000000 = some (.txWide 128#8 0#8)
    ∧ decodeTableWord 16 0xFFFF = some (.txWide 255#8 255#8) := by decide
/-- `SYM17`: burst in bits 16 to 10, space in bits 9 to 0 (R73); V54. -/
theorem test_decode_named_symbols : decodeTableWord 24 0b1100000_1001011000 = some .symStart
    ∧ decodeTableWord 24 0b0110000_1001011000 = some .symOne
    ∧ decodeTableWord 24 0b0011000_1001011000 = some .symZero := by decide
theorem test_decode_sym : decodeTableWord 24 0b0000011_0000000000 = some (.sym 3#7 0#10)
    ∧ decodeTableWord 24 0b1111111_1111111110 = some (.sym 127#7 1022#10)
    ∧ decodeTableWord 24 0b1100000_1001011001 = some (.sym 96#7 601#10) := by decide
/-- `PHASE3` (R75, R83); V56. -/
theorem test_decode_phase : decodeTableWord 8 0b000 = some .phIdle ∧ decodeTableWord 8 0b001 = some .phHigh
    ∧ decodeTableWord 8 0b010 = some .phLow ∧ decodeTableWord 8 0b011 = some .phSpace
    ∧ decodeTableWord 8 0b100 = some .phGap := by decide
theorem test_decode_phase_reserved : decode (.phase3 0b101#3) = .error (.reservedPhase 0b101#3)
    ∧ decode (.phase3 0b110#3) = .error (.reservedPhase 0b110#3)
    ∧ decode (.phase3 0b111#3) = .error (.reservedPhase 0b111#3) := ⟨rfl, rfl, rfl⟩
/-- Bits above a format's width (log 12). -/
theorem test_tableWord_out_of_width : decodeTableWord 8 8 = none ∧ decodeTableWord 24 0x20000 = none
    ∧ decodeTableWord 16 0x10000 = none ∧ decodeTableWord 32 0 = none := by decide
/-- `WIRE13`, slots in time order (R76): A1's pair, bits 1010100 then 10000. -/
def wire0115 : List (BitVec 17) :=
  [0x18258#17, 0x0C258#17, 0x06258#17, 0x0C258#17, 0x06258#17, 0x0C258#17, 0x06258#17, 0x06258#17,
    0x0C258#17, 0x06258#17, 0x06258#17, 0x06258#17, 0x06258#17]
theorem test_decode_frame : decode (.wire13 wire0115) = .ok (.frame 1#8 0x15#8) := rfl
theorem test_encode_frame : encode (.frame 1#8 0x15#8) = .wire13 wire0115 := rfl
theorem test_decode_frame_rejects : decode (.wire13 []) = .error (.slotCount 0)
    ∧ decode (.wire13 wire0115.tail) = .error (.slotCount 12)
    ∧ decode (.wire13 (0x0C258#17 :: wire0115.tail)) = .error .slotZeroNotStart
    ∧ decode (.wire13 (wire0115.take 12 ++ [0x18258#17])) = .error .slotNotData := ⟨rfl, rfl, rfl, rfl⟩
/-- The rows without bits (R80) are decoded from their written form, and no other row is. -/
theorem test_decode_written : decode (.written (.pinw .high)) = .ok (.pinw .high)
    ∧ decode (.written (.dly 600)) = .ok (.dly 600) ∧ decode (.written (.dlyms 25)) = .ok (.dlyms 25)
    ∧ decode (.written .pulse) = .ok .pulse ∧ decode (.written (.burst 24#7)) = .ok (.burst 24#7)
    ∧ decode (.written .space) = .ok .space ∧ decode (.written (.bit true)) = .ok (.bit true)
    ∧ decode (.written .start) = .ok .start ∧ decode (.written (.cmdBits 0x15#8)) = .ok (.cmdBits 0x15#8)
    ∧ decode (.written (.devBits 1#8)) = .ok (.devBits 1#8) ∧ decode (.written .gap) = .ok .gap
    ∧ decode .rst = .ok .reset
    ∧ decode (.written (.tx 0#8 0#8)) = .error .notOfMacroFormat := by
  exact ⟨rfl, rfl, rfl, rfl, rfl, rfl, rfl, rfl, rfl, rfl, rfl, rfl, rfl⟩
/-- V55. -/
theorem test_w12 : w12 1#8 0x15#8 = 0x095#12 ∧ w12 31#8 127#8 = 0xFFF#12 ∧ w12 0x1A#8 0x2E#8 = 0xD2E#12 := by decide

/-! ## One step at a time (V40 to V47) -/

/-- V40, from tick 0 to tick 1. -/
theorem test_tx_accepted :
    seen regs (step (asking 0x01#8 0x15#8 (idle r1000))) = some ⟨.high, 0, 96, 12, 0x15, 0x01, false, .high⟩ := by decide
/-- V43: a request in tick 100 changes nothing. -/
theorem test_tx_busy :
    seen regs (step (asking 31#8 127#8 (busy .low 0 93#7 1 .low))) = some ⟨.high, 0, 92, 12, 0x15, 0x01, false, .high⟩ := by
  decide
/-- V41, V47: refused, and the single `ERR`. -/
theorem test_txWide_refused :
    seen regs (step (asking 0x01#8 0x95#8 (idle r1000))) = some ⟨.idle, 0, 0, 0, 0, 0, true, .low⟩
    ∧ seen regs (step (asking 32#8 128#8 (idle r1000))) = some ⟨.idle, 0, 0, 0, 0, 0, true, .low⟩ := by decide
/-- V42: `TRUNCATE`. -/
theorem test_txWide_truncated :
    seen regs (step (asking 0x01#8 0x95#8 (idle (cfg 1000 .truncate))))
      = some ⟨.high, 0, 96, 12, 0x95, 0x01, false, .high⟩ := by decide
/-- V46: reset wins over a request. -/
theorem test_reset_and_request :
    seen regs (step (doing (.ports ⟨true, true, 0x15#8, 0x01#8⟩) (idle r1000))) = some ⟨.idle, 0, 0, 0, 0, 0, false, .low⟩ := by
  decide
/-- V44: reset in the middle of a high part; the pin was high to the end of the tick (R233). -/
theorem test_reset_in_frame :
    seen regs (step (doing (.ports Ports.reset) (busy .high 1 48#7 8 .high))) = some ⟨.idle, 0, 0, 0, 0, 0, false, .low⟩
    ∧ seen State.pinLog (step (doing (.ports Ports.reset) (busy .high 1 48#7 8 .high))) = some [⟨.high, 1⟩] := by decide
/-- R177. -/
theorem test_phIdle : seen regs (step (idle r1000)) = some ⟨.idle, 0, 0, 0, 0, 0, false, .low⟩
    ∧ seen State.pinLog (step (idle r1000)) = some [⟨.low, 1⟩] := by decide
/-- V40, ticks 1 to 2 and 12 to 13. -/
theorem test_phHigh :
    seen regs (step (busy .high 0 96#7 12 .high)) = some ⟨.high, 0, 96, 11, 0x15, 1, false, .high⟩
    ∧ seen regs (step (busy .high 0 96#7 1 .high)) = some ⟨.low, 0, 96, 13, 0x15, 1, false, .low⟩ := by decide
/-- V40, ticks 25 to 26. -/
theorem test_phLow_next_cycle :
    seen regs (step (busy .low 0 96#7 1 .low)) = some ⟨.high, 0, 95, 12, 0x15, 1, false, .high⟩ := by decide
/-- V40, ticks 2400 to 2401. -/
theorem test_phLow_end_of_burst :
    seen regs (step (busy .low 0 1#7 1 .low)) = some ⟨.space, 0, 0, 600, 0x15, 1, false, .low⟩ := by decide
/-- V40, ticks 3000 to 3001 and 4800 to 4801. -/
theorem test_phSpace_next_symbol :
    seen regs (step (busy .space 0 0#7 1 .low)) = some ⟨.high, 1, 48, 12, 0x15, 1, false, .high⟩
    ∧ seen regs (step (busy .space 1 0#7 1 .low)) = some ⟨.high, 2, 24, 12, 0x15, 1, false, .high⟩ := by decide
/-- V40, ticks 19800 to 19801, with `G` = 1000 and `G` = 0. -/
theorem test_phSpace_end_of_frame :
    seen regs (step (busy .space 12 0#7 1 .low)) = some ⟨.gap, 12, 0, 1000, 0x15, 1, false, .low⟩
    ∧ seen regs (step { busy .space 12 0#7 1 .low with cfg := cfg 0 .reject })
      = some ⟨.idle, 12, 0, 0, 0x15, 1, false, .low⟩ := by decide
/-- V40, ticks 20800 to 20801. -/
theorem test_phGap :
    seen regs (step (busy .gap 12 0#7 1000 .low)) = some ⟨.gap, 12, 0, 999, 0x15, 1, false, .low⟩
    ∧ seen regs (step (busy .gap 12 0#7 1 .low)) = some ⟨.idle, 12, 0, 0, 0x15, 1, false, .low⟩ := by decide

/-! ## Directly called operations (V10 to V24), by one step; the record of the pin has its newest segment first -/

/-- R101: the level is set, no time passes; V17. -/
theorem test_pinw : seen regs (step (doing (.call (.pinw .high)) (idle r1000))) = some ⟨.idle, 0, 0, 0, 0, 0, false, .high⟩
    ∧ step (doing (.call (.pinw .low)) (idle r1000)) = .next (idle r1000) := ⟨by decide, rfl⟩
/-- V15. -/
theorem test_dly : seen State.pinLog (step (doing (.call (.dly 600)) (idle r1000))) = some [⟨.low, 600⟩]
    ∧ step (doing (.call (.dly 0)) (idle r1000)) = .next (idle r1000) := ⟨by decide, rfl⟩
/-- V16. -/
theorem test_dlyms : seen State.pinLog (step (doing (.call (.dlyms 25)) (idle r1000))) = some [⟨.low, 25000⟩] := by decide
/-- V10. -/
theorem test_pulse : seen State.pinLog (step (doing (.call .pulse) (idle r1000))) = some [⟨.low, 13⟩, ⟨.high, 12⟩]
    ∧ seen State.pin (step (doing (.call .pulse) (idle r1000))) = some .low := by decide
/-- V13. -/
theorem test_burst : seen State.pinLog (step (doing (.call (.burst 2#7)) (idle r1000)))
      = some [⟨.low, 13⟩, ⟨.high, 12⟩, ⟨.low, 13⟩, ⟨.high, 12⟩]
    ∧ seen State.pcnt (step (doing (.call (.burst 2#7)) (busy .idle 0 5#7 0 .low))) = some 0#7 := by decide
/-- V11. -/
theorem test_burst_zero : exec (.burst 0#7) (busy .idle 3 5#7 7 .high) = .next (busy .idle 3 5#7 7 .high) := rfl
/-- V20. -/
theorem test_space : seen State.pinLog (step (doing (.call .space) (idle r1000))) = some [⟨.low, 600⟩] := by decide
/-- V23, V24. -/
theorem test_sym : seen State.pinLog (step (doing (.symbol 0b0000011_0000000000#17) (idle r1000)))
      = some [⟨.low, 13⟩, ⟨.high, 12⟩, ⟨.low, 13⟩, ⟨.high, 12⟩, ⟨.low, 13⟩, ⟨.high, 12⟩]
    ∧ seen State.pinLog (step (doing (.symbol 0b0000000_1001011000#17) (idle r1000))) = some [⟨.low, 600⟩] := by decide
/-- The duration and the number of high segments of a record. -/
def shape (s : State) : Nat × Nat := (dur s.pinLog, highSegments s.pinLog)
/-- V21. -/
theorem test_bit_zero : seen shape (step (doing (.call (.bit false)) (idle r1000))) = some (1200, 24) := by
  set_option maxRecDepth 4000 in decide
/-- V22. -/
theorem test_bit_one : seen shape (step (doing (.call (.bit true)) (idle r1000))) = some (1800, 48) := by
  set_option maxRecDepth 8000 in decide
theorem test_symZero : seen shape (step (doing (.symbol 0x06258#17) (idle r1000))) = some (1200, 24) := by
  set_option maxRecDepth 4000 in decide
theorem test_symOne : seen shape (step (doing (.symbol 0x0C258#17) (idle r1000))) = some (1800, 48) := by
  set_option maxRecDepth 8000 in decide
theorem test_symStart : seen shape (step (doing (.symbol 0x18258#17) (idle r1000))) = some (3000, 96) := by
  set_option maxRecDepth 16000 in decide
/-- A profile with short bursts, 4, 2 and 1 cycles, so that a whole frame is a small test. -/
def short : State :=
  idle ⟨{ sirc12 with nStart := 4#7, nOne := 2#7, nZero := 1#7 }, 1000, .reject, 1, by decide, by decide⟩
/-- A profile whose fields have no bits. -/
def noFields : State := idle ⟨{ sirc12 with wCmd := 0#4, wDev := 0#4 }, 1000, .reject, 1, by decide, by decide⟩
/-- 00_scope.md R11: each invariant refuses a profile that violates it, so no configuration holds it. -/
theorem test_profile_refused : ({ sirc12 with nZero := 48#7 } : Profile).valid = false
    ∧ ({ sirc12 with nZero := 0#7 } : Profile).valid = false ∧ ({ sirc12 with nStart := 0#7 } : Profile).valid = false
    ∧ ({ sirc12 with tHigh := 0#10 } : Profile).valid = false ∧ ({ sirc12 with tLow := 0#10 } : Profile).valid = false
    ∧ ({ sirc12 with tSpace := 0#10 } : Profile).valid = false ∧ ({ sirc12 with wCmd := 9#4 } : Profile).valid = false
    ∧ ({ sirc12 with wDev := 9#4 } : Profile).valid = false
    ∧ ({ sirc12 with wCmd := 8#4, wDev := 8#4 } : Profile).indexable = false := by decide
/-- R142: 4 cycles of 25, then 600. -/
theorem test_start : seen shape (step (doing (.call .start) short)) = some (700, 4) := by
  set_option maxRecDepth 4000 in decide
/-- A1's command bits: three 1, four 0, so 10 cycles of 25 and 7 spaces of 600 (R143). -/
theorem test_cmdBits : seen shape (step (doing (.call (.cmdBits 0x15#8)) short)) = some (4450, 10) := by
  set_option maxRecDepth 4000 in decide
/-- A1's device bits: one 1, four 0, so 6 cycles and 5 spaces (R144). -/
theorem test_devBits : seen shape (step (doing (.call (.devBits 0x01#8)) short)) = some (3150, 6) := by
  set_option maxRecDepth 4000 in decide
/-- The whole frame: 20 cycles and 13 spaces (R146); `SYM` ends at 12. -/
theorem test_frame : seen shape (step (doing (.wire wire0115) short)) = some (8300, 20)
    ∧ seen State.sym (step (doing (.wire wire0115) short)) = some 12 := by
  set_option maxRecDepth 4000 in decide
/-- R176. -/
theorem test_gap : seen State.pinLog (step (doing (.call .gap) (idle r1000))) = some [⟨.low, 1000⟩]
    ∧ seen State.phase (exec .gap (busy .gap 12 0#7 7 .low)) = some .idle := by decide
/-- A call waits while the sequencer is at work (log 1). -/
theorem test_call_waits : seen regs (step (doing (.call .pulse) (busy .high 0 96#7 12 .high)))
      = some ⟨.high, 0, 96, 11, 0x15, 1, false, .high⟩
    ∧ seen State.script (step (doing (.call .pulse) (busy .high 0 96#7 12 .high))) = some [.call .pulse] := by decide

/-! ## The host's hooks -/

theorem test_withFetchWord_tx : step (State.reset.withFetchWord 16 0x0115) = exec (.tx 1#8 0x15#8) State.reset := rfl
theorem test_withFetchWord_txWide : step (State.reset.withFetchWord 16 0x0195) = exec (.txWide 1#8 0x95#8) State.reset := rfl
theorem test_withFetchWord_sym : step (State.reset.withFetchWord 24 0x00C00) = exec (.sym 3#7 0#10) State.reset := rfl
theorem test_withFetchWord_phase :
    step (State.reset.withFetchWord 8 1) = exec .phHigh { State.reset with phase := .high }
    ∧ step (State.reset.withFetchWord 8 4) = exec .phGap { State.reset with phase := .gap } := ⟨rfl, rfl⟩

/-! ## The frame as data (V30, V33 to V37) -/

theorem test_frameSyms : (frameSyms sirc12 1#8 0x15#8).map (fun y => y.burst.toNat)
    = [96, 48, 24, 48, 24, 48, 24, 24, 48, 24, 24, 24, 24] := by decide
theorem test_ones : ones sirc12 1#8 0x15#8 = 4 ∧ ones sirc12 1#8 0x12#8 = 3
    ∧ ones sirc12 0x1A#8 0x2E#8 = 7 ∧ ones sirc12 0xFF#8 0xFF#8 = 12 := by decide
theorem test_tFrame : tFrame sirc12 0 = 17400 ∧ tFrame sirc12 4 = 19800 ∧ tFrame sirc12 12 = 24600 := by decide
/-- R10, 90_conflicts.md: 40 000 Hz exactly, and 12/25 of the period. -/
theorem test_fCarrier : sirc12.fCarrier = 40000 ∧ sirc12.duty = (12, 25) := by decide
theorem test_offsets : symbolOffset sirc12 1#8 0x15#8 1 = 3000 ∧ symbolOffset sirc12 1#8 0x15#8 8 = 13200
    ∧ symbolOffset sirc12 1#8 0x15#8 13 = 19800 := by decide
/-- R87: the program P5. -/
theorem test_portsAt : portsAt [.tx 0 0 0#8 0#8, .tx 100 100 31#8 127#8] 100 = Ports.request 31#8 127#8
    ∧ portsAt [.tx 0 0 0#8 0#8, .tx 100 100 31#8 127#8] 99 = Ports.quiet
    ∧ portsAt [.reset 3005] 3005 = Ports.reset := by decide
/-- Log 18: two `TX` lines cover tick 5. -/
theorem test_portsAt_overlap : portsAt [.tx 0 9 1#8 2#8, .tx 5 5 3#8 4#8] 5 = Ports.request 3#8 4#8
    ∧ portsAt [.tx 0 9 1#8 2#8, .tx 5 5 3#8 4#8] 6 = Ports.request 1#8 2#8 := by decide
/-- R187: quiet ticks that are still to come do not keep a run from being over; a request does, and so does a frame. -/
theorem test_runOver : (doing (.ports Ports.quiet) (idle r1000)).runOver = true
    ∧ (doing (.ports Ports.quiet) (asking 1#8 0x15#8 (idle r1000))).runOver = false
    ∧ (doing (.ports Ports.reset) (idle r1000)).runOver = false
    ∧ (doing (.ports Ports.quiet) (busy .gap 12 0#7 1 .low)).runOver = false := by decide

/-! ## Witnesses: the hypotheses of the statements can be met -/

/-- The host drives reset and presents a request in the same tick. -/
def resetAndAsk : Ports := ⟨true, true, 0x15#8, 0x01#8⟩

/-- ConfigurationIsNeverWritten. -/
theorem witness_config : (∃ t, exec .reset (idle r1000) = .next t) ∧ ∃ t, step (idle r1000) = .next t :=
  ⟨⟨_, rfl⟩, ⟨_, rfl⟩⟩
/-- ResetTickEndsInTheResetState. -/
theorem witness_reset : (doing (.ports resetAndAsk) (busy .high 1 48#7 8 .high)).script = .ports resetAndAsk :: []
    ∧ resetAndAsk.rst = true := by decide
/-- LegalRequestIsAccepted, at the largest legal values. -/
theorem witness_legal : (idle r1000).cfg.profile = sirc12 ∧ (idle r1000).phase = .idle
    ∧ (31#8).toNat ≤ 31 ∧ (127#8).toNat ≤ 127 := by decide
/-- WideRequestIsRefusedUnderReject, each alternative at its smallest value. -/
theorem witness_refused : (idle r1000).cfg.rangePolicy = .reject ∧ (idle r1000).phase = .idle
    ∧ ((32#8).toNat > 2 ^ (idle r1000).cfg.profile.wDev.toNat - 1
      ∨ (127#8).toNat > 2 ^ (idle r1000).cfg.profile.wCmd.toNat - 1)
    ∧ ((31#8).toNat > 2 ^ (idle r1000).cfg.profile.wDev.toNat - 1
      ∨ (128#8).toNat > 2 ^ (idle r1000).cfg.profile.wCmd.toNat - 1) := by decide
/-- WideRequestIsAcceptedUnderTruncate. -/
theorem witness_truncated : (idle (cfg 0 .truncate)).cfg.profile = sirc12
    ∧ (idle (cfg 0 .truncate)).cfg.rangePolicy = .truncate ∧ (idle (cfg 0 .truncate)).phase = .idle
    ∧ ((32#8).toNat > 31 ∨ (127#8).toNat > 127) ∧ ((31#8).toNat > 31 ∨ (128#8).toNat > 127) := by decide
/-- RequestOutsideIdleHasNoEffect, its four phases; CarrierPhasesLastTheirTicks and GapLastsItsTicks use them too. -/
theorem witness_outside_idle : (busy .high 0 96#7 12 .high).phase = .high ∧ (busy .low 0 96#7 13 .low).phase = .low
    ∧ (busy .space 0 0#7 600 .low).phase = .space ∧ (busy .gap 12 0#7 1000 .low).phase = .gap := by decide
/-- UntransferredRequestPortsHaveNoInfluence, in a busy phase and in `IDLE`. -/
theorem witness_untransferred : (Ports.request 31#8 127#8).rst = false ∧ Ports.quiet.rst = false
    ∧ (busy .high 0 96#7 12 .high).phase ≠ .idle
    ∧ (⟨false, false, 9#8, 9#8⟩ : Ports).reqValid = false ∧ Ports.quiet.reqValid = false := by decide
/-- TransferredRequestIsExecuted, both clauses. -/
theorem witness_transferred : (asking 31#8 127#8 (idle r1000)).script = .ports (Ports.request 31#8 127#8) :: []
    ∧ (Ports.request 31#8 127#8).rst = false ∧ (Ports.request 31#8 127#8).reqValid = true
    ∧ (asking 31#8 127#8 (idle r1000)).phase = .idle
    ∧ ((Ports.request 31#8 127#8).reqDevice.toNat ≤ 31 ∧ (Ports.request 31#8 127#8).reqCommand.toNat ≤ 127)
    ∧ ((Ports.request 32#8 127#8).reqDevice.toNat > 31 ∨ (Ports.request 32#8 127#8).reqCommand.toNat > 127)
    ∧ ((Ports.request 31#8 128#8).reqDevice.toNat > 31 ∨ (Ports.request 31#8 128#8).reqCommand.toNat > 127) := by decide
/-- HighTickCountsDownThenEntersLow and GapTickCountsDownThenEntersIdle. -/
theorem witness_high_gap_ticks : (busy .high 0 96#7 2 .high).tcnt > 1 ∧ (busy .high 0 96#7 1 .high).tcnt ≤ 1
    ∧ (busy .gap 12 0#7 2 .low).tcnt > 1 ∧ (busy .gap 12 0#7 1 .low).tcnt ≤ 1 := by decide
/-- LowTickCountsDownThenNextCycleOrSpace. -/
theorem witness_low_ticks : (busy .low 0 96#7 2 .low).tcnt > 1
    ∧ ((busy .low 0 2#7 1 .low).tcnt ≤ 1 ∧ (busy .low 0 2#7 1 .low).pcnt.toNat > 1)
    ∧ ((busy .low 0 1#7 1 .low).tcnt ≤ 1 ∧ (busy .low 0 1#7 1 .low).pcnt.toNat ≤ 1) := by decide
/-- SpaceTickCountsDownThenNextSymbolOrGap. -/
theorem witness_space_ticks : (busy .space 0 0#7 2 .low).tcnt > 1 ∧ (busy .space 11 0#7 1 .low).tcnt ≤ 1
    ∧ (busy .space 11 0#7 1 .low).sym.toNat < sirc12.wCmd.toNat + sirc12.wDev.toNat
    ∧ (busy .space 12 0#7 1 .low).sym.toNat ≥ sirc12.wCmd.toNat + sirc12.wDev.toNat
    ∧ (busy .space 12 0#7 1 .low).cfg.profile = sirc12 ∧ (cfg 0 .reject).gapUs = 0 ∧ (cfg 1 .reject).gapUs ≠ 0 := by decide
/-- BurstIsSoManyCarrierCycles. -/
theorem witness_burst : (0#7).toNat = 0 ∧ (1#7).toNat ≠ 0 ∧ (127#7).toNat ≠ 0 := by decide
/-- BitAndStartSymbolsHaveTheirBurstLengths, and the clauses of FieldBitsAreSentLeastSignificantFirst. -/
theorem witness_profile : (idle r1000).cfg.profile = sirc12
    ∧ (idle r1000).cfg.profile.wCmd.toNat ≠ 0 ∧ (idle r1000).cfg.profile.wDev.toNat ≠ 0
    ∧ noFields.cfg.profile.wCmd.toNat = 0 ∧ noFields.cfg.profile.wDev.toNat = 0 := by decide
/-- GapKeepsThePinForItsTicksThenIdle, its second clause. -/
theorem witness_gap_quiet : (busy .gap 12 0#7 1 .low).pin = .low := rfl
/-- PulsesAgreeWithTheFrameAsAList, at the last slot; FrameTruncatesItsOperands, at values that differ in every dropped bit. -/
theorem witness_frame_data : (12#4).toNat ≤ sirc12.wCmd.toNat + sirc12.wDev.toNat
    ∧ (0xFF#8).toNat % 2 ^ sirc12.wDev.toNat = (0x1F#8).toNat % 2 ^ sirc12.wDev.toNat
    ∧ (0xFF#8).toNat % 2 ^ sirc12.wCmd.toNat = (0x7F#8).toNat % 2 ^ sirc12.wCmd.toNat
    ∧ sirc12.valid = true ∧ (idle r1000).cfg.profile = sirc12 := by decide
/-- StepRunsTheDecodedInstruction: from the ports, from the phase, from a call. -/
theorem witness_fetch : decode (asking 1#8 0x15#8 (idle r1000)).fetch = .ok (.tx 1#8 0x15#8)
    ∧ decode (busy .space 0 0#7 1 .low).fetch = .ok .phSpace
    ∧ decode (doing (.wire wire0115) (idle r1000)).fetch = .ok (.frame 1#8 0x15#8) := ⟨rfl, rfl, rfl⟩
/-- TickIsTheStepOfTheRule and every statement with `TickNext`: ports, an empty script, a call that waits. -/
theorem witness_tick : (asking 1#8 0x15#8 (idle r1000)).TickNext ∧ (idle r1000).TickNext
    ∧ (doing (.call .pulse) (busy .high 0 96#7 12 .high)).TickNext := by decide
/-- EveryTickHasANextState: the third clause. -/
theorem witness_undecodable : decode (doing (.call (.tx 0#8 0#8)) (idle r1000)).fetch = .error .notOfMacroFormat := rfl
/-- TickLastsOneMicrosecond (its `TICK`), EveryStepKeepsTheRecordNormal, and the tick statements below: a tick has a next state. -/
theorem witness_tick_next : (busy .high 0 96#7 12 .high).TickNext ∧ (busy .high 0 96#7 12 .high).LogNormal
    ∧ (busy .high 0 96#7 12 .high).cfg.tickUs = 1 ∧ ∃ t, step (busy .high 0 96#7 12 .high) = .next t :=
  ⟨rfl, rfl, rfl, ⟨_, rfl⟩⟩
/-- EveryStepKeepsTheInvariants, PinIsHighExactlyInHigh: states of each phase that meet the invariant, at the ends of the counts. -/
theorem witness_inv : (busy .high 0 96#7 12 .high).Inv ∧ (busy .low 12 1#7 1 .low).Inv ∧ (busy .space 3 0#7 600 .low).Inv
    ∧ (busy .gap 12 0#7 1000 .low).Inv ∧ (doing (.call (.pinw .low)) (idle r1000)).Inv
    ∧ ∃ t, step (busy .high 0 96#7 12 .high) = .next t := ⟨by decide, by decide, by decide, by decide, by decide, ⟨_, rfl⟩⟩
/-- ErrorFlagTellsTheLastTransfer, OperandsAreWrittenOnlyByAcceptanceOrReset, SymbolsFollowOneAnotherInOrder: a reset, a transfer,
a tick with neither. -/
theorem witness_flag : (doing (.ports resetAndAsk) (idle r1000)).portsNow.rst = true
    ∧ (asking 32#8 0#8 (idle r1000)).transfers = true
    ∧ (asking 32#8 0#8 (busy .high 0 96#7 12 .high)).transfers = false
    ∧ (asking 32#8 0#8 (busy .high 0 96#7 12 .high)).portsNow.rst = false := by decide
/-- PinChangesOnlyOnPhaseEntry: a rise, and falls by the phase and by reset. -/
theorem witness_pin : seen State.pin (step (busy .low 0 2#7 1 .low)) = some .high
    ∧ seen State.pin (step (busy .high 0 2#7 1 .high)) = some .low
    ∧ seen State.pin (step (doing (.ports Ports.reset) (busy .high 0 2#7 8 .high))) = some .low := by decide
/-- IdleIsLeftByAcceptanceAndEnteredAfterTheFrame: out of `IDLE`, and into it from the gap and from the last space. -/
theorem witness_idle : seen State.phase (step (asking 0#8 0#8 (idle r1000))) = some .high
    ∧ seen State.phase (step (busy .gap 12 0#7 1 .low)) = some .idle
    ∧ seen State.phase (step { busy .space 12 0#7 1 .low with cfg := cfg 0 .reject }) = some .idle := by decide
/-- LegalPairsHaveDifferentFrames. -/
theorem witness_pairs : sirc12.valid = true ∧ (31#8).toNat < 2 ^ sirc12.wDev.toNat ∧ (127#8).toNat < 2 ^ sirc12.wCmd.toNat
    ∧ frameSyms sirc12 31#8 127#8 = frameSyms sirc12 31#8 127#8 := by decide
/-- FrameSendsTheBitsOfTheWireWord, SymbolsStandAtTheirOffsets: the last slot, its last cycle, the ends of its ticks. -/
theorem witness_slots : sirc12.wCmd = 7#4 ∧ sirc12.wDev = 5#4 ∧ 11 < 12
    ∧ (frameSyms sirc12 31#8 127#8)[12]? = some ⟨48#7, 600#10⟩
    ∧ 47 < (48#7).toNat ∧ 24 < 25 ∧ 599 < 600 := by decide
/-- CarrierPhasesLastTheirTicks, GapLastsItsTicks: a state with a whole segment before it, and one tick. -/
theorem witness_segments : (busy .high 0 96#7 12 .high).tcnt = 12 ∧ (busy .high 0 96#7 12 .high).NoResetFor 12
    ∧ (busy .low 0 2#7 13 .low).pcnt.toNat > 1 ∧ (busy .low 0 1#7 1 .low).pcnt.toNat ≤ 1
    ∧ (asking 0#8 0#8 (busy .low 0 1#7 1 .low)).NoResetFor 1
    ∧ (busy .gap 12 0#7 1000 .low).tcnt = 1000 ∧ (busy .gap 12 0#7 1000 .low).NoResetFor 1000 := by decide
/-- BurstLastsTwentyFiveTicksACycle. -/
theorem witness_burst_run : (busy .high 0 96#7 12 .high).cfg.profile = sirc12 ∧ (busy .high 0 96#7 12 .high).pin = .high
    ∧ (busy .high 0 96#7 12 .high).pcnt = 96#7 ∧ 1 ≤ (96#7).toNat
    ∧ (busy .high 0 96#7 12 .high).NoResetFor (25 * (96#7).toNat) := by decide
/-- AcceptedRequestSendsItsFrame, ReadyIsLowForTheFrameAndTheGap: a wide request under `TRUNCATE`. -/
theorem witness_frame_truncate : (asking 255#8 255#8 (idle (cfg 0 .truncate))).cfg.profile = sirc12
    ∧ (asking 255#8 255#8 (idle (cfg 0 .truncate))).phase = .idle
    ∧ (asking 255#8 255#8 (idle (cfg 0 .truncate))).script = .ports (Ports.request 255#8 255#8) :: []
    ∧ (Ports.request 255#8 255#8).rst = false ∧ (Ports.request 255#8 255#8).reqValid = true
    ∧ (asking 255#8 255#8 (idle (cfg 0 .truncate))).cfg.rangePolicy = .truncate
    ∧ ∀ a ∈ ([] : List HostAction), a.leavesResetLow = true := by decide
/-- The same two: P5, the second request one tick after the first. -/
theorem witness_frame : (asking 0#8 0#8 (asking 31#8 127#8 (idle r1000))).cfg.profile = sirc12
    ∧ (asking 0#8 0#8 (asking 31#8 127#8 (idle r1000))).phase = .idle
    ∧ (asking 0#8 0#8 (asking 31#8 127#8 (idle r1000))).script
      = .ports (Ports.request 0#8 0#8) :: [.ports (Ports.request 31#8 127#8)]
    ∧ (Ports.request 0#8 0#8).rst = false ∧ (Ports.request 0#8 0#8).reqValid = true
    ∧ (Ports.request 0#8 0#8).reqDevice.toNat ≤ 31 ∧ (Ports.request 0#8 0#8).reqCommand.toNat ≤ 127
    ∧ ∀ a ∈ [HostAction.ports (Ports.request 31#8 127#8)].take (17400 + 600 * ones sirc12 0#8 0#8 + 1000),
      a.leavesResetLow = true := by
  refine ⟨rfl, rfl, rfl, rfl, rfl, by decide, by decide, fun a h => ?_⟩
  obtain rfl := List.mem_singleton.mp (List.mem_of_mem_take h)
  rfl

end Sys2Proof.Tests
end

section
/-!
SUPPORT. The record of the pin and time in ticks (spec/00_scope.md R12, R16, R17): `norm` as an operator on signals, the record
as `norm` of what was put on the pin, and what each instruction puts there.
-/

namespace Sys2Proof.Machine

/-! ## `norm` keeps the signal (00_scope.md R17) -/

@[simp] theorem normWave_nil : normWave [] = [] := rfl

@[simp] theorem normWave_cons (g : Segment) (w : Waveform) : normWave (g :: w) = joinFront g (normWave w) := rfl

/-- The level in a tick of `g :: w`: that of `g` for its duration, then that of `w`. -/
theorem levelAt_cons (g : Segment) (w : Waveform) (t : Nat) :
    levelAt (g :: w) t = if t < g.ticks then some g.level else levelAt w (t - g.ticks) := rfl

/-- Dropping an empty segment and merging two segments of one level are invisible on the pin. -/
theorem levelAt_joinFront (g : Segment) (w : Waveform) (t : Nat) : levelAt (joinFront g w) t = levelAt (g :: w) t := by
  unfold joinFront
  split
  · next hg => simp [levelAt_cons, hg]
  · cases w with
    | nil => rfl
    | cons h r =>
      dsimp only
      split
      · next hl =>
        simp only [levelAt_cons, hl]
        by_cases hg : t < g.ticks
        · simp [hg, Nat.lt_add_right]
        · have hlt : t - g.ticks < h.ticks ↔ t < g.ticks + h.ticks := by omega
          simp [hg, hlt, Nat.sub_sub]
      · rfl

theorem isNormal_normWave (w : Waveform) : isNormal (normWave w) = true := by
  induction w with
  | nil => rfl
  | cons g w ih => exact isNormal_joinFront g ih

@[simp] theorem dur_normWave (w : Waveform) : dur (normWave w) = dur w := by
  induction w with
  | nil => rfl
  | cons g w ih => simp [ih]

theorem levelAt_normWave (w : Waveform) (t : Nat) : levelAt (normWave w) t = levelAt w t := by
  induction w generalizing t with
  | nil => rfl
  | cons g w ih => rw [normWave_cons, levelAt_joinFront, levelAt_cons, levelAt_cons, ih]

/-- Settles O54: normal form, duration and levels are kept by each `joinFront` of which `normWave` is made. -/
theorem normIsTheSameSignal : Obligations.NormIsTheSameSignal := by
  intro w
  exact ⟨isNormal_normWave w, dur_normWave w, levelAt_normWave w⟩

/-! ## The record is `norm` of what was put on the pin (00_scope.md R17, log 2) -/

/-- Joining in front looks at the first segment only. -/
theorem joinFront_append (g : Segment) {w : Waveform} (hw : w ≠ []) (r : Waveform) :
    joinFront g (w ++ r) = joinFront g w ++ r := by
  cases w with
  | nil => exact absurd rfl hw
  | cons h w =>
    by_cases hg : g.ticks = 0
    · simp [joinFront, hg]
    · by_cases hl : h.level = g.level <;> simp [joinFront, hg, hl]

/-- Joining `a` in front and joining `g` at the back do not depend on their order. The one case in which they meet is a waveform
of at most one segment. -/
theorem joinFront_reverse_joinFront (a g : Segment) (w : Waveform) :
    joinFront g (joinFront a w).reverse = (joinFront a (joinFront g w.reverse).reverse).reverse := by
  by_cases ha : a.ticks = 0
  · simp [joinFront, ha]
  by_cases hg : g.ticks = 0
  · simp [joinFront, hg]
  match w with
  | [] => by_cases hl : a.level = g.level <;> simp [joinFront, ha, hg, hl, eq_comm, Nat.add_comm]
  | [h] =>
    by_cases hla : h.level = a.level <;> by_cases hlg : h.level = g.level <;>
      simp_all [joinFront, Nat.add_left_comm]
  | h :: k :: r =>
    have hfront (y : Waveform) : joinFront a (h :: y) = joinFront a [h] ++ y := joinFront_append a (List.cons_ne_nil h []) y
    have hback (y : Waveform) : joinFront g ((k :: r).reverse ++ y) = joinFront g (k :: r).reverse ++ y :=
      joinFront_append g (by simp) y
    calc joinFront g (joinFront a (h :: k :: r)).reverse
        = joinFront g (k :: r).reverse ++ (joinFront a [h]).reverse := by rw [hfront (k :: r), List.reverse_append, hback]
      _ = (joinFront a (h :: (joinFront g (k :: r).reverse).reverse)).reverse := by
        rw [hfront (joinFront g (k :: r).reverse).reverse, List.reverse_append, List.reverse_reverse]
      _ = (joinFront a (joinFront g (h :: k :: r).reverse).reverse).reverse := by
        rw [List.reverse_cons (a := h), hback, List.reverse_append, List.reverse_singleton, List.singleton_append]

/-- A segment more at the end of a waveform is a segment more on its record. -/
theorem normWave_append_singleton (v : Waveform) (g : Segment) :
    (normWave (v ++ [g])).reverse = joinFront g (normWave v).reverse := by
  induction v with
  | nil => by_cases hg : g.ticks = 0 <;> simp [joinFront, hg]
  | cons a v ih =>
    rw [List.cons_append, normWave_cons, normWave_cons, joinFront_reverse_joinFront, ← ih, List.reverse_reverse]

/-- Settles O55, by induction on what is put on the pin. -/
theorem recordIsTheNormOfTheWaveform : Obligations.RecordIsTheNormOfTheWaveform := by
  intro v w
  induction w generalizing v with
  | nil => simp
  | cons g w ih =>
    calc pushWave (g :: w) (normWave v).reverse
        = pushWave w (normWave (v ++ [g])).reverse := by rw [normWave_append_singleton]; rfl
      _ = (normWave (v ++ g :: w)).reverse := by rw [ih, List.append_assoc, List.singleton_append]

/-! ## A tick puts one tick of the old level on the record (10_state.md R36) -/

@[simp] theorem State.highTick_pinLog (s : State) : s.highTick.pinLog = s.pinLog := by
  unfold State.highTick; split <;> rfl
@[simp] theorem State.highTick_cfg (s : State) : s.highTick.cfg = s.cfg := by
  unfold State.highTick; split <;> rfl
@[simp] theorem State.lowTick_pinLog (s : State) : s.lowTick.pinLog = s.pinLog := by
  unfold State.lowTick; split <;> [rfl; (split <;> rfl)]
@[simp] theorem State.lowTick_cfg (s : State) : s.lowTick.cfg = s.cfg := by
  unfold State.lowTick; split <;> [rfl; (split <;> rfl)]
@[simp] theorem State.spaceTick_pinLog (s : State) : s.spaceTick.pinLog = s.pinLog := by
  unfold State.spaceTick; split <;> [rfl; (split <;> simp)]
@[simp] theorem State.spaceTick_cfg (s : State) : s.spaceTick.cfg = s.cfg := by
  unfold State.spaceTick; split <;> [rfl; (split <;> simp)]
@[simp] theorem State.gapTick_pinLog (s : State) : s.gapTick.pinLog = s.pinLog := by
  unfold State.gapTick; split <;> rfl
@[simp] theorem State.gapTick_cfg (s : State) : s.gapTick.cfg = s.cfg := by
  unfold State.gapTick; split <;> rfl
@[simp] theorem State.phaseTick_pinLog (s : State) : s.phaseTick.pinLog = s.pinLog := by
  unfold State.phaseTick; split <;> simp
@[simp] theorem State.phaseTick_cfg (s : State) : s.phaseTick.cfg = s.cfg := by
  unfold State.phaseTick; split <;> simp
@[simp] theorem State.present_pinLog (d c : Byte) (s : State) : (s.present d c).pinLog = s.pinLog := by
  unfold State.present; split <;> simp

/-- Whatever kind of tick it is, it records the old level for one tick and keeps the configuration. -/
theorem step_tick_pinLog_cfg {s t : State} (hn : s.TickNext) (h : step s = .next t) :
    t.pinLog = pushLevel s.pin 1 s.pinLog ∧ t.cfg = s.cfg := by
  rcases step_cases h with ⟨-, -, rfl⟩ | ⟨-, -, -, -, rfl⟩ | ⟨-, -, -, rfl⟩ | ⟨-, hf, -⟩
  · simp
  · simp
  · simp
  · exact absurd hn (by simp [hf])

/-- Settles O30: the record grows by one tick, whose length in microseconds the tick does not write. -/
theorem tickLastsOneMicrosecond : Obligations.TickLastsOneMicrosecond := by
  intro s t hn h
  obtain ⟨hlog, hcfg⟩ := step_tick_pinLog_cfg hn h
  have htick : t.tick = s.tick + 1 := by simp [State.tick, hlog, Nat.add_comm]
  have htime : t.timeUs = s.timeUs + s.cfg.tickUs := by simp [State.timeUs, htick, hcfg, Nat.add_mul]
  exact ⟨htick, fun hus => hus ▸ htime, htime⟩

/-! ## What each instruction puts on the pin -/

/-- `BURST n` (40_carrier.md R106, R107). -/
@[simp] theorem State.emitBurst_pinLog (n : BitVec 7) (s : State) :
    (s.emitBurst n).pinLog = pushWave (waveBurst s.cfg.profile n) s.pinLog := by
  by_cases hn : n = 0#7
  · subst hn; rfl
  · rw [State.emitBurst_eq hn]

@[simp] theorem State.emitSymbol_pinLog (n : BitVec 7) (w : BitVec 10) (s : State) :
    (s.emitSymbol n w).pinLog = pushWave (waveSym s.cfg.profile n w) s.pinLog := by
  rw [State.emitSymbol_eq]

@[simp] theorem State.emitSymbol_cfg (n : BitVec 7) (w : BitVec 10) (s : State) : (s.emitSymbol n w).cfg = s.cfg := by
  rw [State.emitSymbol_eq]

@[simp] theorem State.emitBits_pinLog (slot : Nat) (bs : List Bool) (s : State) :
    (State.emitBits slot bs s).pinLog = pushWave (waveBits s.cfg.profile bs) s.pinLog := by
  cases bs with
  | nil => rfl
  | cons b bs => rw [State.emitBits_eq]

@[simp] theorem State.emitBits_cfg (slot : Nat) (bs : List Bool) (s : State) : (State.emitBits slot bs s).cfg = s.cfg := by
  cases bs with
  | nil => rfl
  | cons b bs => rw [State.emitBits_eq]

/-- `FRAME d, c` (42_frame.md R146). -/
theorem State.emitFrame_pinLog (d c : Byte) (s : State) :
    (s.emitFrame d c).pinLog = pushWave (waveFrame s.cfg.profile d c) s.pinLog := by
  simp [State.emitFrame, State.emitCmdBits, State.emitDevBits, State.emitStart_eq, waveFrame, waveStart, waveCmdBits,
    waveDevBits, pushWave_append]

/-- What the instruction puts on the pin when it is run in `s`: one tick of the pin's level for the operations of one tick, else
the operation's own waveform; `DLY` and `GAP` do not write the pin (log 7). -/
def emitted (i : Instr) (s : State) : Waveform :=
  match i with
  | .tx _ _ | .txWide _ _ | .phIdle | .phHigh | .phLow | .phSpace | .phGap | .reset => [⟨s.pin, 1⟩]
  | .symStart => waveSym s.cfg.profile 96#7 600#10
  | .symOne => waveSym s.cfg.profile 48#7 600#10
  | .symZero => waveSym s.cfg.profile 24#7 600#10
  | .sym n w => waveSym s.cfg.profile n w
  | .frame d c => waveFrame s.cfg.profile d c
  | .pinw _ => []
  | .dly n => [⟨s.pin, n⟩]
  | .dlyms n => [⟨s.pin, 1000 * n⟩]
  | .pulse => wavePulse s.cfg.profile
  | .burst n => waveBurst s.cfg.profile n
  | .space => waveSpace s.cfg.profile
  | .bit b => waveBit s.cfg.profile b
  | .start => waveStart s.cfg.profile
  | .cmdBits c => waveCmdBits s.cfg.profile c
  | .devBits d => waveDevBits s.cfg.profile d
  | .gap => [⟨s.pin, s.cfg.gapUs⟩]

/-- An instruction changes the record of the pin only by putting its waveform on it. -/
theorem exec_pinLog {i : Instr} {s t : State} (h : exec i s = .next t) : t.pinLog = pushWave (emitted i s) s.pinLog := by
  cases i <;> obtain rfl := Host.Outcome.next.inj h
  case tx d c => exact State.present_pinLog d c _
  case txWide d c => exact State.present_pinLog d c _
  case symStart => simp [emitted]
  case symOne => simp [emitted]
  case symZero => simp [emitted]
  case sym n w => exact State.emitSymbol_pinLog n w s
  case phIdle => rfl
  case phHigh => exact State.highTick_pinLog _
  case phLow => exact State.lowTick_pinLog _
  case phSpace => exact State.spaceTick_pinLog _
  case phGap => exact State.gapTick_pinLog _
  case frame d c => exact State.emitFrame_pinLog d c s
  case pinw v => rfl
  case dly n => rfl
  case dlyms n => rfl
  case pulse => rfl
  case burst n => exact State.emitBurst_pinLog n s
  case space => rfl
  case bit b => rw [State.emitBit_eq]; exact State.emitSymbol_pinLog _ _ s
  case start => rw [State.emitStart_eq]; exact State.emitSymbol_pinLog _ _ s
  case cmdBits c => exact State.emitBits_pinLog _ _ s
  case devBits d => exact State.emitBits_pinLog _ _ s
  case gap => rfl
  case reset => rfl

/-- A step that answers runs the instruction it decodes, on the state whose script has its head used up. -/
theorem step_next {s t : State} (h : step s = .next t) : ∃ i, decode s.fetch = .ok i ∧ exec i s.consume = .next t := by
  unfold step at h
  split at h
  · next i hd => exact ⟨i, hd, h⟩
  · cases h

/-- Settles O33: a step only puts a waveform on the record, and that keeps the normal form. -/
theorem everyStepKeepsTheRecordNormal : Obligations.EveryStepKeepsTheRecordNormal := by
  intro s t hs h
  obtain ⟨i, -, hi⟩ := step_next h
  have hlog : t.pinLog = pushWave (emitted i s.consume) s.pinLog := by simpa using exec_pinLog hi
  rw [State.LogNormal, hlog]
  exact isNormal_pushWave _ hs

end Sys2Proof.Machine
end

section
/-!
SUPPORT. The rest of a step said once: the transitions of a tick of the phase in progress (spec/43_transmit.md R180), and what an
operation called directly writes and leaves (log 1, log 7).
-/

namespace Sys2Proof.Machine

/-! ## The tick of the phase in progress -/

/-- The transitions of 43_transmit.md R180 in a tick that resets nothing and transfers nothing, each with its guard. -/
inductive PhaseMove (s : State) : State → Prop where
  | idle (hp : s.phase = .idle) : PhaseMove s s
  | count (hp : s.phase ≠ .idle) (ht : 1 < s.tcnt) : PhaseMove s s.countDown
  | highEnds (hp : s.phase = .high) (ht : s.tcnt ≤ 1) : PhaseMove s s.enterLow
  | cycleEnds (hp : s.phase = .low) (ht : s.tcnt ≤ 1) (hc : 1 < s.pcnt.toNat) :
      PhaseMove s { s.enterHigh with pcnt := s.pcnt - 1#7 }
  | burstEnds (hp : s.phase = .low) (ht : s.tcnt ≤ 1) (hc : s.pcnt.toNat ≤ 1) :
      PhaseMove s { s.enterSpace with pcnt := 0#7 }
  | symbolEnds (hp : s.phase = .space) (ht : s.tcnt ≤ 1) (hc : s.sym.toNat < s.cfg.profile.lastSym) :
      PhaseMove s { s.enterHigh with
        sym := s.sym + 1#4, pcnt := pulses s.cfg.profile (s.sym + 1#4) s.cmd s.dev }
  | frameEnds (hp : s.phase = .space) (ht : s.tcnt ≤ 1) (hc : s.cfg.profile.lastSym ≤ s.sym.toNat)
      (hg : s.cfg.gapUs ≠ 0) : PhaseMove s { s with phase := .gap, tcnt := s.cfg.gapUs }
  | frameEndsWithoutGap (hp : s.phase = .space) (ht : s.tcnt ≤ 1) (hc : s.cfg.profile.lastSym ≤ s.sym.toNat)
      (hg : s.cfg.gapUs = 0) : PhaseMove s s.enterIdle
  | gapEnds (hp : s.phase = .gap) (ht : s.tcnt ≤ 1) : PhaseMove s s.enterIdle

/-- A segment that is not over counts down, in each of the four busy phases. -/
theorem State.phaseTick_of_counting {s : State} (hp : s.phase ≠ .idle) (ht : 1 < s.tcnt) :
    s.phaseTick = s.countDown := by
  cases h : s.phase with
  | idle => exact absurd h hp
  | high => simp [State.phaseTick, h, State.highTick, ht]
  | low => simp [State.phaseTick, h, State.lowTick, ht]
  | space => simp [State.phaseTick, h, State.spaceTick, ht]
  | gap => simp [State.phaseTick, h, State.gapTick, ht]

theorem State.lowTick_move {s : State} (hp : s.phase = .low) (ht : s.tcnt ≤ 1) : PhaseMove s s.lowTick := by
  rw [State.lowTick, if_neg (Nat.not_lt.mpr ht)]
  split
  · next hc => exact .cycleEnds hp ht (by simpa [BitVec.lt_def] using hc)
  · next hc => exact .burstEnds hp ht (by simpa [BitVec.lt_def] using hc)

theorem State.spaceTick_move {s : State} (hp : s.phase = .space) (ht : s.tcnt ≤ 1) : PhaseMove s s.spaceTick := by
  rw [State.spaceTick, if_neg (Nat.not_lt.mpr ht)]
  split
  · next hc => rw [State.beginSymbol_eq]; exact .symbolEnds hp ht hc
  · next hc =>
    rw [State.enterGap]
    split
    · next hg => exact .frameEndsWithoutGap hp ht (Nat.le_of_not_lt hc) hg
    · next hg => exact .frameEnds hp ht (Nat.le_of_not_lt hc) hg

/-- The tick of the phase in progress is one of the transitions. -/
theorem State.phaseTick_move (s : State) : PhaseMove s s.phaseTick := by
  by_cases hp : s.phase = .idle
  · rw [show s.phaseTick = s by simp [State.phaseTick, hp]]
    exact .idle hp
  by_cases ht : 1 < s.tcnt
  · rw [State.phaseTick_of_counting hp ht]
    exact .count hp ht
  replace ht := Nat.le_of_not_lt ht
  unfold State.phaseTick
  split
  · next h => exact absurd h hp
  · next h => rw [State.highTick, if_neg (Nat.not_lt.mpr ht)]; exact .highEnds h ht
  · next h => exact State.lowTick_move h ht
  · next h => exact State.spaceTick_move h ht
  · next h => rw [State.gapTick, if_neg (Nat.not_lt.mpr ht)]; exact .gapEnds h ht

/-- The registers and fields that no transition writes: `CMD`, `DEV` (10_state.md R23), `ERR` (60_exceptions.md R210) and the
model's own. -/
theorem PhaseMove.keeps {s t : State} (h : PhaseMove s t) :
    t.cfg = s.cfg ∧ t.cmd = s.cmd ∧ t.dev = s.dev ∧ t.err = s.err ∧ t.script = s.script := by
  cases h <;> exact ⟨rfl, rfl, rfl, rfl, rfl⟩

/-! ## An operation called directly -/

/-- What the operations realised as a whole, other than `PINW 1`, may write: they end in `IDLE` with `TCNT` spent and the pin low
when they began so, with `SYM` at a symbol of the frame; `CMD`, `DEV`, `ERR` and the model's own fields are left (log 7). -/
structure CallEffect (s t : State) : Prop where
  cfg : t.cfg = s.cfg
  script : t.script = s.script
  cmd : t.cmd = s.cmd
  dev : t.dev = s.dev
  err : t.err = s.err
  phase : s.phase = .idle → t.phase = .idle
  tcnt : s.tcnt = 0 → t.tcnt = 0
  pin : s.pin = .low → t.pin = .low
  sym : s.sym.toNat ≤ s.cfg.profile.lastSym → t.sym.toNat ≤ t.cfg.profile.lastSym

theorem CallEffect.refl (s : State) : CallEffect s s := ⟨rfl, rfl, rfl, rfl, rfl, id, id, id, id⟩

theorem CallEffect.trans {s t u : State} (h : CallEffect s t) (k : CallEffect t u) : CallEffect s u where
  cfg := k.cfg.trans h.cfg
  script := k.script.trans h.script
  cmd := k.cmd.trans h.cmd
  dev := k.dev.trans h.dev
  err := k.err.trans h.err
  phase := k.phase ∘ h.phase
  tcnt := k.tcnt ∘ h.tcnt
  pin := k.pin ∘ h.pin
  sym := k.sym ∘ h.sym

theorem CallEffect.writePin_low (s : State) : CallEffect s (s.writePin .low) :=
  ⟨rfl, rfl, rfl, rfl, rfl, id, id, fun _ => rfl, id⟩

theorem CallEffect.delay (n : Nat) (s : State) : CallEffect s (s.delay n) :=
  ⟨rfl, rfl, rfl, rfl, rfl, id, fun _ => rfl, id, id⟩

theorem CallEffect.emitPulse (s : State) : CallEffect s s.emitPulse :=
  ⟨rfl, rfl, rfl, rfl, rfl, id, fun _ => rfl, fun _ => rfl, id⟩

theorem CallEffect.emitGap (s : State) : CallEffect s s.emitGap :=
  ⟨rfl, rfl, rfl, rfl, rfl, fun _ => rfl, fun _ => rfl, id, id⟩

theorem CallEffect.emitSpace (s : State) : CallEffect s s.emitSpace :=
  (CallEffect.writePin_low s).trans (.delay _ _)

theorem CallEffect.emitBurst (n : BitVec 7) (s : State) : CallEffect s (s.emitBurst n) := by
  by_cases hn : n = 0#7
  · subst hn; exact .refl s
  · rw [State.emitBurst_eq hn]
    exact ⟨rfl, rfl, rfl, rfl, rfl, id, fun _ => rfl, fun _ => rfl, id⟩

theorem CallEffect.emitSymbol (n : BitVec 7) (w : BitVec 10) (s : State) : CallEffect s (s.emitSymbol n w) :=
  ((CallEffect.emitBurst n s).trans (.writePin_low _)).trans (.delay _ _)

theorem CallEffect.emitStart (s : State) : CallEffect s s.emitStart :=
  (CallEffect.emitBurst _ s).trans (.emitSpace _)

/-- Data bits in slots of the frame: the last slot written to `SYM` is one of them. -/
theorem CallEffect.emitBits {slot : Nat} {bs : List Bool} {s : State}
    (hslots : slot + bs.length ≤ s.cfg.profile.lastSym + 1) : CallEffect s (State.emitBits slot bs s) := by
  cases bs with
  | nil => exact .refl s
  | cons b bs =>
    rw [State.emitBits_eq]
    refine ⟨rfl, rfl, rfl, rfl, rfl, id, fun _ => rfl, fun _ => rfl, fun _ => ?_⟩
    have hlast : slot + bs.length ≤ s.cfg.profile.lastSym := by simpa [← Nat.add_assoc] using hslots
    exact (Nat.mod_le _ _).trans hlast

theorem CallEffect.emitCmdBits (c : Byte) (s : State) : CallEffect s (s.emitCmdBits c) :=
  .emitBits (by simp [cmdFieldBits, Profile.lastSym]; omega)

theorem CallEffect.emitDevBits (d : Byte) (s : State) : CallEffect s (s.emitDevBits d) :=
  .emitBits (by simp [devFieldBits, Profile.lastSym]; omega)

theorem CallEffect.emitFrame (d c : Byte) (s : State) : CallEffect s (s.emitFrame d c) :=
  have hsym : CallEffect s { s with sym := 0#4 } := ⟨rfl, rfl, rfl, rfl, rfl, id, id, id, fun _ => Nat.zero_le _⟩
  ((hsym.trans (.emitStart _)).trans (.emitCmdBits c _)).trans (.emitDevBits d _)

/-- What a direct call can do: `PINW 1` writes the pin and nothing else; the others have the effect above. -/
theorem exec_call_cases {i : Instr} {s t : State}
    (hf : i.format = .sym17 ∨ i.format = .wire13 ∨ i.format = .written) (h : exec i s = .next t) :
    (i = .pinw .high ∧ t = s.writePin .high) ∨ CallEffect s t := by
  cases i <;> obtain rfl := Host.Outcome.next.inj h
  case pinw v =>
    cases v with
    | high => exact .inl ⟨rfl, rfl⟩
    | low => exact .inr (.writePin_low s)
  case symStart => exact .inr (.emitSymbol _ _ s)
  case symOne => exact .inr (.emitSymbol _ _ s)
  case symZero => exact .inr (.emitSymbol _ _ s)
  case sym n w => exact .inr (.emitSymbol n w s)
  case frame d c => exact .inr (.emitFrame d c s)
  case dly n => exact .inr (.delay n s)
  case dlyms n => exact .inr (.delay _ s)
  case pulse => exact .inr (.emitPulse s)
  case burst n => exact .inr (.emitBurst n s)
  case space => exact .inr (.emitSpace s)
  case bit b => exact .inr ((CallEffect.emitBurst _ s).trans (.emitSpace _))
  case start => exact .inr (.emitStart s)
  case cmdBits c => exact .inr (.emitCmdBits c s)
  case devBits d => exact .inr (.emitDevBits d s)
  case gap => exact .inr (.emitGap s)
  all_goals simp [Instr.format] at hf

/-- The ports of a directly called operation are quiet. -/
theorem portsNow_of_call {s : State} (hf : s.nextIsTick = false) : s.portsNow = Ports.quiet := by
  unfold State.nextIsTick at hf
  unfold State.portsNow
  split at hf <;> simp_all

/-- The decoder of each format answers operations of that format (30_encoding.md R70, R80). -/
theorem decode_format {k : Code} {i : Instr} (hd : decode k = .ok i) : i.format = k.format := by
  cases k with
  | req16 w =>
    rw [← Except.ok.inj hd, decodeReq]
    split <;> rfl
  | sym17 w =>
    rw [← Except.ok.inj hd, decodeSym]
    split_ifs <;> rfl
  | phase3 w =>
    rw [decode, decodePhase] at hd
    split_ifs at hd <;> cases hd <;> rfl
  | wire13 slots =>
    rw [decode] at hd
    unfold decodeWire at hd
    repeat' split at hd
    all_goals cases hd
    rfl
  | written j =>
    rw [decode] at hd
    split_ifs at hd with hj
    cases hd
    exact hj
  | rst => cases hd; rfl

/-- An operation of format `MACRO` is decoded from the code that writes it and from no other (30_encoding.md R80). -/
theorem decode_eq_written {k : Code} {i : Instr} (hd : decode k = .ok i) (hw : i.format = .written) :
    k = .written i := by
  have hk : k.format = .written := (decode_format hd).symm.trans hw
  cases k with
  | written j =>
    rw [decode] at hd
    split_ifs at hd
    cases hd
    rfl
  | _ => cases hk

/-- The registers and the ports show no operation of format `MACRO` (30_encoding.md R80). -/
theorem portCode_ne_written (s : State) (p : Ports) (i : Instr) : s.portCode p ≠ .written i := by
  unfold State.portCode
  split
  · simp
  split <;> simp

/-- A written operation is fetched only when the host calls it. -/
theorem mem_script_of_fetch_written {s : State} {i : Instr} (h : s.fetch = .written i) : .call i ∈ s.script := by
  unfold State.fetch at h
  split at h
  · exact absurd h (portCode_ne_written _ _ _)
  · exact absurd h (portCode_ne_written _ _ _)
  · split at h
    · cases h
    · exact absurd h (portCode_ne_written _ _ _)
  · split at h
    · cases h
    · exact absurd h (portCode_ne_written _ _ _)
  · next hs =>
    split at h
    · cases h; simp [hs]
    · exact absurd h (portCode_ne_written _ _ _)

/-- The fourth case of `step_cases`, with what the called operation does. -/
theorem step_call_cases {s t : State} (hf : s.nextIsTick = false)
    (h : ∃ i, decode s.fetch = .ok i ∧ exec i s.consume = .next t) :
    (.call (.pinw .high) ∈ s.script ∧ t = s.consume.writePin .high) ∨ CallEffect s.consume t := by
  obtain ⟨i, hd, he⟩ := h
  rcases exec_call_cases (call_format hf hd) he with ⟨rfl, ht⟩ | hcall
  · exact .inl ⟨mem_script_of_fetch_written (decode_eq_written hd rfl), ht⟩
  · exact .inr hcall

end Sys2Proof.Machine
end

section
/-!
SUPPORT. The rules of spec/10_state.md: configuration, input ports, operand registers, pin, and the invariants of R40.
-/

namespace Sys2Proof.Machine

/-! ## The configuration (10_state.md R32, R33) -/

/-- Settles O2: the constants are those of `sirc12` and `hardware`. -/
theorem hardwareHasTheSirc12Constants : Obligations.HardwareHasTheSirc12Constants :=
  ⟨rfl, rfl, rfl, rfl, rfl, rfl, rfl, rfl, rfl, rfl, State.reset.cfg.valid⟩

@[simp] theorem State.present_cfg (d c : Byte) (s : State) : (s.present d c).cfg = s.cfg := by
  unfold State.present; split <;> simp

/-- An instruction of a format that a port carries takes one tick, which leaves the configuration; the others are direct calls. -/
theorem exec_cfg {i : Instr} {s t : State} (h : exec i s = .next t) : t.cfg = s.cfg := by
  have hcall (hf : i.format = .sym17 ∨ i.format = .wire13 ∨ i.format = .written) : t.cfg = s.cfg := by
    rcases exec_call_cases hf h with ⟨-, rfl⟩ | hc
    · rfl
    · exact hc.cfg
  cases i
  case tx d c => obtain rfl := Host.Outcome.next.inj h; exact State.present_cfg d c _
  case txWide d c => obtain rfl := Host.Outcome.next.inj h; exact State.present_cfg d c _
  case phIdle => obtain rfl := Host.Outcome.next.inj h; rfl
  case phHigh => obtain rfl := Host.Outcome.next.inj h; exact State.highTick_cfg _
  case phLow => obtain rfl := Host.Outcome.next.inj h; exact State.lowTick_cfg _
  case phSpace => obtain rfl := Host.Outcome.next.inj h; exact State.spaceTick_cfg _
  case phGap => obtain rfl := Host.Outcome.next.inj h; exact State.gapTick_cfg _
  case reset => obtain rfl := Host.Outcome.next.inj h; rfl
  all_goals exact hcall (by simp [Instr.format])

/-- Settles O3: a step runs one instruction, and none writes the configuration. -/
theorem configurationIsNeverWritten : Obligations.ConfigurationIsNeverWritten := by
  refine ⟨fun i s t h => exec_cfg h, fun s t h => ?_⟩
  obtain ⟨i, -, hi⟩ := step_next h
  simpa using exec_cfg hi

/-! ## The input ports (10_state.md R35) -/

/-- Settles O10: the tick is a reset in both runs, or the tick of the phase in progress in both. -/
theorem untransferredRequestPortsHaveNoInfluence : Obligations.UntransferredRequestPortsHaveNoInfluence := by
  intro s p q rest hrst hquiet
  have htick (r : Ports) : State.TickNext { s with script := .ports r :: rest } := rfl
  cases hp : p.rst with
  | true =>
    have hq : q.rst = true := hrst ▸ hp
    rw [step_of_reset (htick p) hp, step_of_reset (htick q) hq]
    rfl
  | false =>
    have hq : q.rst = false := hrst ▸ hp
    have hphase : (s.phase ≠ .idle ∨ p.reqValid = false) ∧ (s.phase ≠ .idle ∨ q.reqValid = false) := by
      rcases hquiet with h | h | ⟨hpv, hqv⟩
      · simp [hp] at h
      · exact ⟨.inl h, .inl h⟩
      · exact ⟨.inr hpv, .inr hqv⟩
    rw [step_of_phase (htick p) hp hphase.1, step_of_phase (htick q) hq hphase.2]
    rfl

/-! ## The operand registers (10_state.md R23) -/

/-- A transferred request with both values in range, or under `TRUNCATE`, is accepted (60_exceptions.md R201). -/
theorem not_refused_iff (c : Config) (dev cmd : Byte) :
    ¬(c.rangePolicy = .reject ∧ outOfRange c.profile dev cmd = true) ↔
      c.rangePolicy = .truncate
        ∨ (dev.toNat ≤ 2 ^ c.profile.wDev.toNat - 1 ∧ cmd.toNat ≤ 2 ^ c.profile.wCmd.toNat - 1) := by
  rw [outOfRange_iff]
  cases c.rangePolicy with
  | reject => simp; omega
  | truncate => simp

/-- What a transfer does to `CMD` and `DEV`: an accepted one writes both, a refused one neither. -/
theorem State.transfer_operands (d c : Byte) (s : State) :
    (¬(s.cfg.rangePolicy = .reject ∧ outOfRange s.cfg.profile d c = true) →
      (s.transfer d c).cmd = c ∧ (s.transfer d c).dev = d)
    ∧ (s.cfg.rangePolicy = .reject ∧ outOfRange s.cfg.profile d c = true →
      (s.transfer d c).cmd = s.cmd ∧ (s.transfer d c).dev = s.dev) := by
  refine ⟨fun h => ?_, fun ⟨hp, hr⟩ => ?_⟩
  · simp [State.transfer_accepted h]
  · simp [State.transfer_refused hp hr]

/-- Settles O35, by the four kinds of step: reset, transfer, the phase in progress, direct call. -/
theorem operandsAreWrittenOnlyByAcceptanceOrReset : Obligations.OperandsAreWrittenOnlyByAcceptanceOrReset := by
  intro s t h
  rw [← not_refused_iff]
  rcases step_cases h with ⟨-, hr, rfl⟩ | ⟨-, hr, hi, hv, rfl⟩ | ⟨-, hr, hp, rfl⟩ | ⟨-, hf, hcall⟩
  · simp [hr, State.transfers]
  · have htr : s.transfers = true := by simp [State.transfers, State.ready, State.readyFlag, hr, hi, hv]
    have ⟨hacc, href⟩ := (s.consume.elapse 1).transfer_operands s.portsNow.reqDevice s.portsNow.reqCommand
    simp only [State.elapse_cfg, State.consume_cfg] at hacc href
    refine ⟨by simp [hr], fun ha => hacc ha.2, fun _ hna => ?_⟩
    simpa using href (not_not.mp fun hn => hna ⟨htr, hn⟩)
  · have htr : s.transfers ≠ true := by
      rcases hp with hp | hv
      · simp [State.transfers, State.ready, State.readyFlag, hp]
      · simp [State.transfers, hv]
    obtain ⟨-, hcmd, hdev, -, -⟩ := (s.consume.elapse 1).phaseTick_move.keeps
    exact ⟨by simp [hr], fun ha => absurd ha.1 htr, fun _ _ => by simp [hcmd, hdev]⟩
  · have hkeep : t.cmd = s.cmd ∧ t.dev = s.dev := by
      rcases step_call_cases hf hcall with ⟨-, rfl⟩ | hc
      · simp
      · exact ⟨by simpa using hc.cmd, by simpa using hc.dev⟩
    have hquiet := portsNow_of_call hf
    exact ⟨by simp [hquiet, Ports.quiet], fun ha => by simp [State.transfers, hquiet, Ports.quiet] at ha, fun _ _ => hkeep⟩

/-! ## The pin (10_state.md R27) -/

/-- A transition raises the pin only on entry to `HIGH`, and lowers it only on entry to `LOW` or `SPACE`. -/
theorem PhaseMove.pin {s t : State} (h : PhaseMove s t) :
    t.pin = s.pin ∨ (t.pin = .high ∧ t.phase = .high ∧ t.tcnt = s.cfg.profile.tHigh.toNat)
      ∨ (t.pin = .low ∧ ((t.phase = .low ∧ t.tcnt = s.cfg.profile.tLow.toNat)
        ∨ (t.phase = .space ∧ t.tcnt = s.cfg.profile.tSpace.toNat))) := by
  cases h with
  | idle => exact .inl rfl
  | count => exact .inl rfl
  | highEnds => exact .inr (.inr ⟨rfl, .inl ⟨rfl, rfl⟩⟩)
  | cycleEnds => exact .inr (.inl ⟨rfl, rfl, rfl⟩)
  | burstEnds => exact .inr (.inr ⟨rfl, .inr ⟨rfl, rfl⟩⟩)
  | symbolEnds => exact .inr (.inl ⟨rfl, rfl, rfl⟩)
  | frameEnds => exact .inl rfl
  | frameEndsWithoutGap => exact .inl rfl
  | gapEnds => exact .inl rfl

/-- A transfer leaves the pin, when it is refused, or enters `HIGH`. -/
theorem State.transfer_pin (d c : Byte) (s : State) :
    (s.transfer d c).pin = s.pin ∨ ((s.transfer d c).pin = .high ∧ (s.transfer d c).phase = .high
      ∧ (s.transfer d c).tcnt = s.cfg.profile.tHigh.toNat) := by
  by_cases h : s.cfg.rangePolicy = .reject ∧ outOfRange s.cfg.profile d c = true
  · exact .inl (by simp [State.transfer_refused h.1 h.2])
  · exact .inr (by simp [State.transfer_accepted h, State.accept_eq])

/-- Settles O37, by the three kinds of tick. -/
theorem pinChangesOnlyOnPhaseEntry : Obligations.PinChangesOnlyOnPhaseEntry := by
  intro s t hn h
  rcases step_cases h with ⟨-, hr, rfl⟩ | ⟨-, -, -, -, rfl⟩ | ⟨-, -, -, rfl⟩ | ⟨-, hf, -⟩
  · exact ⟨fun _ hhigh => by simp at hhigh, fun _ _ => .inl hr⟩
  · rcases (s.consume.elapse 1).transfer_pin s.portsNow.reqDevice s.portsNow.reqCommand with hpin | ⟨hpin, hp, ht⟩
    · simp_all
    · exact ⟨fun _ _ => ⟨hp, by simpa using ht⟩, fun _ hlow => by simp [hpin] at hlow⟩
  · rcases (s.consume.elapse 1).phaseTick_move.pin with hpin | ⟨hpin, hp, ht⟩ | ⟨hpin, hentry⟩
    · simp_all
    · exact ⟨fun _ _ => ⟨hp, by simpa using ht⟩, fun _ hlow => by simp [hpin] at hlow⟩
    · exact ⟨fun _ hhigh => by simp [hpin] at hhigh, fun _ _ => .inr (by simpa using hentry)⟩
  · exact absurd hn (by simp [hf])

/-! ## The invariants of 10_state.md R40: what they say in each phase -/

theorem State.phaseInv_of_idle {s : State} (hp : s.phase = .idle) : s.PhaseInv ↔ s.pin = .low ∧ s.tcnt = 0 := by
  simp [State.PhaseInv, hp]

theorem State.phaseInv_of_high {s : State} (hp : s.phase = .high) :
    s.PhaseInv ↔ s.pin = .high ∧ 1 ≤ s.tcnt ∧ s.tcnt ≤ s.cfg.profile.tHigh.toNat
      ∧ 1 ≤ s.pcnt.toNat ∧ s.pcnt.toNat ≤ s.cfg.profile.nStart.toNat := by
  simp [State.PhaseInv, hp]

theorem State.phaseInv_of_low {s : State} (hp : s.phase = .low) :
    s.PhaseInv ↔ s.pin = .low ∧ 1 ≤ s.tcnt ∧ s.tcnt ≤ s.cfg.profile.tLow.toNat
      ∧ 1 ≤ s.pcnt.toNat ∧ s.pcnt.toNat ≤ s.cfg.profile.nStart.toNat := by
  simp [State.PhaseInv, hp]

theorem State.phaseInv_of_space {s : State} (hp : s.phase = .space) :
    s.PhaseInv ↔ s.pin = .low ∧ 1 ≤ s.tcnt ∧ s.tcnt ≤ s.cfg.profile.tSpace.toNat ∧ s.pcnt = 0#7 := by
  simp [State.PhaseInv, hp]

theorem State.phaseInv_of_gap {s : State} (hp : s.phase = .gap) :
    s.PhaseInv ↔ s.pin = .low ∧ 1 ≤ s.tcnt ∧ s.tcnt ≤ s.cfg.gapUs ∧ s.sym.toNat = s.cfg.profile.lastSym
      ∧ s.pcnt = 0#7 := by
  simp [State.PhaseInv, hp]

/-- Settles O34: each phase says what the pin is. -/
theorem pinIsHighExactlyInHigh : Obligations.PinIsHighExactlyInHigh := by
  rintro s ⟨-, -, hphase, -, -⟩
  rw [State.irOut]
  cases hp : s.phase with
  | idle => simp [((State.phaseInv_of_idle hp).mp hphase).1]
  | high => simp [((State.phaseInv_of_high hp).mp hphase).1]
  | low => simp [((State.phaseInv_of_low hp).mp hphase).1]
  | space => simp [((State.phaseInv_of_space hp).mp hphase).1]
  | gap => simp [((State.phaseInv_of_gap hp).mp hphase).1]

/-! ## Every step keeps the invariants -/

@[simp] theorem lastSym_sirc12 : sirc12.lastSym = 12 := rfl

/-- No burst of `SIRC12` is longer than the start burst (00_scope.md R10). -/
theorem pulses_sirc12_le (y : BitVec 4) (c d : Byte) : (pulses sirc12 y c d).toNat ≤ sirc12.nStart.toNat := by
  unfold pulses bitBurst
  split
  · exact le_rfl
  · split <;> decide

theorem one_le_pulses {p : Profile} (h : p.valid = true) (y : BitVec 4) (c d : Byte) : 1 ≤ (pulses p y c d).toNat :=
  Nat.one_le_iff_ne_zero.mpr fun e => pulses_ne_zero h y c d (BitVec.eq_of_toNat_eq e)

/-- A count-down stops at 1, and keeps what the phase says of the other registers. -/
theorem State.PhaseInv.countDown {s : State} (h : s.PhaseInv) (hb : s.phase ≠ .idle) (ht : 1 < s.tcnt) :
    s.countDown.PhaseInv := by
  have hlower : 1 ≤ s.tcnt - 1 := Nat.le_sub_one_of_lt ht
  have hupper {m : Nat} (hm : s.tcnt ≤ m) : s.tcnt - 1 ≤ m := (Nat.sub_le _ _).trans hm
  obtain ⟨-, hhigh, hlow, hspace, hgap⟩ := h
  exact ⟨fun hp => absurd hp hb,
    fun hp => have ⟨hpin, _, hm, hrest⟩ := hhigh hp; ⟨hpin, hlower, hupper hm, hrest⟩,
    fun hp => have ⟨hpin, _, hm, hrest⟩ := hlow hp; ⟨hpin, hlower, hupper hm, hrest⟩,
    fun hp => have ⟨hpin, _, hm, hrest⟩ := hspace hp; ⟨hpin, hlower, hupper hm, hrest⟩,
    fun hp => have ⟨hpin, _, hm, hrest⟩ := hgap hp; ⟨hpin, hlower, hupper hm, hrest⟩⟩

/-- `SYM` goes up only while a symbol is left. -/
theorem PhaseMove.sym_le {s t : State} (h : PhaseMove s t) (hsym : s.sym.toNat ≤ s.cfg.profile.lastSym) :
    t.sym.toNat ≤ t.cfg.profile.lastSym := by
  cases h with
  | symbolEnds hp ht hc => exact (s.cfg.toNat_sym_succ hc).trans_le hc
  | _ => exact hsym

/-- Each transition loads `TCNT` with the length of the segment it enters, and `PCNT` with the length of the burst; the profile's
lengths are positive (00_scope.md R11). -/
theorem PhaseMove.phaseInv {s t : State} (h : PhaseMove s t) (hprof : s.cfg.profile = sirc12)
    (hsym : s.sym.toNat ≤ s.cfg.profile.lastSym) (hs : s.PhaseInv) : t.PhaseInv := by
  obtain ⟨-, -, -, hHigh, hLow, hSpace, -, -⟩ := s.cfg.profile.valid_iff.mp s.cfg.valid
  cases h with
  | idle => exact hs
  | count hp ht => exact hs.countDown hp ht
  | highEnds hp ht =>
    obtain ⟨-, -, -, hpcnt⟩ := (State.phaseInv_of_high hp).mp hs
    exact (State.phaseInv_of_low rfl).mpr ⟨rfl, hLow, le_rfl, hpcnt⟩
  | cycleEnds hp ht hc =>
    obtain ⟨-, -, -, -, hmax⟩ := (State.phaseInv_of_low hp).mp hs
    have hsub : (s.pcnt - 1#7).toNat = s.pcnt.toNat - 1 := by bv_omega
    refine (State.phaseInv_of_high rfl).mpr ⟨rfl, hHigh, le_rfl, ?_, ?_⟩
    · exact hsub ▸ Nat.le_sub_one_of_lt hc
    · exact hsub ▸ (Nat.sub_le _ _).trans hmax
  | burstEnds hp ht hc => exact (State.phaseInv_of_space rfl).mpr ⟨rfl, hSpace, le_rfl, rfl⟩
  | symbolEnds hp ht hc =>
    refine (State.phaseInv_of_high rfl).mpr ⟨rfl, hHigh, le_rfl, one_le_pulses s.cfg.valid _ _ _, ?_⟩
    simpa [hprof] using pulses_sirc12_le (s.sym + 1#4) s.cmd s.dev
  | frameEnds hp ht hc hg =>
    obtain ⟨hpin, -, -, hpcnt⟩ := (State.phaseInv_of_space hp).mp hs
    exact (State.phaseInv_of_gap rfl).mpr
      ⟨hpin, Nat.one_le_iff_ne_zero.mpr hg, le_rfl, Nat.le_antisymm hsym hc, hpcnt⟩
  | frameEndsWithoutGap hp ht hc hg =>
    exact (State.phaseInv_of_idle rfl).mpr ⟨((State.phaseInv_of_space hp).mp hs).1, rfl⟩
  | gapEnds hp ht => exact (State.phaseInv_of_idle rfl).mpr ⟨((State.phaseInv_of_gap hp).mp hs).1, rfl⟩

theorem PhaseMove.inv {s t : State} (h : PhaseMove s t) (hs : s.Inv) : t.Inv := by
  obtain ⟨hprof, hsym, hphase, hpolicy, howned⟩ := hs
  have hsym' : s.sym.toNat ≤ s.cfg.profile.lastSym := by simpa [hprof] using hsym
  obtain ⟨hcfg, hcmd, hdev, herr, hscript⟩ := h.keeps
  refine ⟨hcfg ▸ hprof, ?_, h.phaseInv hprof hsym' hphase, ?_, ?_⟩
  · simpa [hcfg, hprof] using h.sym_le hsym'
  · simpa [State.PolicyInv, hcfg, hcmd, hdev, herr] using hpolicy
  · simpa [State.PinOwned, hscript] using howned

theorem State.Inv.consume {s : State} (h : s.Inv) : s.consume.Inv := by
  obtain ⟨hprof, hsym, hphase, hpolicy, howned⟩ := h
  exact ⟨by simpa using hprof, by simpa using hsym, by simpa [State.PhaseInv] using hphase,
    by simpa [State.PolicyInv] using hpolicy, fun a ha => howned a (State.mem_consume_script ha)⟩

/-- The invariants do not speak of the record of the pin. -/
theorem State.Inv.elapse {s : State} (h : s.Inv) (n : Nat) : (s.elapse n).Inv := h

theorem State.Inv.toReset {s : State} (h : s.Inv) : s.toReset.Inv := by
  obtain ⟨hprof, -, -, -, howned⟩ := h
  exact ⟨hprof, Nat.zero_le _, (State.phaseInv_of_idle rfl).mpr ⟨rfl, rfl⟩, by simp [State.PolicyInv], howned⟩

/-- A refused request writes `ERR`, which only `REJECT` does; an accepted one begins the start burst with operands in range unless
the policy is `TRUNCATE` (60_exceptions.md R204). -/
theorem State.Inv.transfer {s : State} (h : s.Inv) (d c : Byte) : (s.transfer d c).Inv := by
  obtain ⟨hprof, hsym, hphase, hpolicy, howned⟩ := h
  by_cases href : s.cfg.rangePolicy = .reject ∧ outOfRange s.cfg.profile d c = true
  · obtain ⟨hrej, hrange⟩ := href
    rw [State.transfer_refused hrej hrange]
    exact ⟨hprof, hsym, hphase, ⟨hpolicy.1, fun htrunc => by simp [hrej] at htrunc⟩, howned⟩
  · rw [State.transfer_accepted href, State.accept_eq]
    refine ⟨hprof, Nat.zero_le _, (State.phaseInv_of_high rfl).mpr ?_, ⟨fun hrej => ?_, fun _ => rfl⟩, howned⟩
    · obtain ⟨-, -, hStart, hHigh, -⟩ := s.cfg.profile.valid_iff.mp s.cfg.valid
      exact ⟨rfl, hHigh, le_rfl, hStart, le_rfl⟩
    · have hlegal : legalPair d c = true := by simpa [hprof, outOfRange_sirc12] using not_and.mp href hrej
      exact ((legalPair_iff d c).mp hlegal).symm

/-- A direct call other than `PINW 1`, in `IDLE`. -/
theorem CallEffect.inv {s t : State} (h : CallEffect s t) (hi : s.phase = .idle) (hs : s.Inv) : t.Inv := by
  obtain ⟨hprof, hsym, hphase, hpolicy, howned⟩ := hs
  obtain ⟨hpin, htcnt⟩ := (State.phaseInv_of_idle hi).mp hphase
  refine ⟨h.cfg ▸ hprof, ?_, (State.phaseInv_of_idle (h.phase hi)).mpr ⟨h.pin hpin, h.tcnt htcnt⟩, ?_, ?_⟩
  · simpa [h.cfg, hprof] using h.sym (by simpa [hprof] using hsym)
  · simpa [State.PolicyInv, h.cfg, h.cmd, h.dev, h.err] using hpolicy
  · simpa [State.PinOwned, h.script] using howned

/-- Settles O32, by the four kinds of step; the one call that breaks R40 is excluded by the invariant itself. -/
theorem everyStepKeepsTheInvariants : Obligations.EveryStepKeepsTheInvariants := by
  intro s t hs h
  have hconsume : s.consume.Inv := State.Inv.consume hs
  have htick : (s.consume.elapse 1).Inv := State.Inv.elapse hconsume 1
  rcases step_cases h with ⟨-, -, rfl⟩ | ⟨-, -, -, -, rfl⟩ | ⟨-, -, -, rfl⟩ | ⟨hi, hf, hcall⟩
  · exact State.Inv.toReset htick
  · exact State.Inv.transfer htick _ _
  · exact (State.phaseTick_move _).inv htick
  · rcases step_call_cases hf hcall with ⟨hmem, -⟩ | hc
    · obtain ⟨-, -, -, -, howned⟩ := hs
      exact absurd rfl (howned _ hmem)
    · exact hc.inv (by simpa using hi) hconsume

/-- Settles O31: the reset state is quiet, in `IDLE`, and its script and record are empty. -/
theorem resetStateMeetsTheInvariants : Obligations.ResetStateMeetsTheInvariants := by
  have hpolicy : State.reset.PolicyInv := ⟨fun _ => ⟨Nat.zero_le _, Nat.zero_le _⟩, fun _ => rfl⟩
  have howned : State.reset.PinOwned := fun _ ha => absurd ha List.not_mem_nil
  exact ⟨⟨rfl, Nat.zero_le _, (State.phaseInv_of_idle rfl).mpr ⟨rfl, rfl⟩, hpolicy, howned⟩, rfl⟩

end Sys2Proof.Machine
end

section
/-!
SUPPORT. The data bits of a frame and their order on the wire (spec/20_memory.md R51, R52, spec/30_encoding.md R77, R78).
-/

namespace Sys2Proof.Machine

/-! ## The bits of a value and of the wire word -/

/-- The shift and mask of 30_encoding.md R78 select a bit; above bit 7 both sides are 0. -/
theorem dataBit_eq_getLsbD (v : Byte) (i : Nat) : dataBit v i = v.getLsbD i := by
  have hmask : (v >>> i) &&& 1#8 = BitVec.setWidth 8 (BitVec.ofBool (v.getLsbD i)) := by
    simpa using BitVec.and_one_eq_setWidth_ofBool_getLsbD (x := v >>> i)
  rw [dataBit, hmask]
  cases v.getLsbD i <;> rfl

/-- `W12` holds the command in bits 6 to 0 and the device in bits 11 to 7. -/
theorem getLsbD_w12 (d c : Byte) {i : Nat} (hi : i < 12) :
    (w12 d c).getLsbD i = if i < 7 then c.getLsbD i else d.getLsbD (i - 7) := by
  rw [w12, BitVec.getLsbD_append]
  split
  · next hc => simp [hc]
  · simp [show i - 7 < 5 by omega]

theorem toNat_w12 (d c : Byte) : (w12 d c).toNat = (d &&& 0x1F#8).toNat * 128 + (c &&& 0x7F#8).toNat := by
  have hdev : (d &&& 0x1F#8).toNat = d.toNat % 2 ^ 5 := Nat.and_two_pow_sub_one_eq_mod d.toNat 5
  have hcmd : (c &&& 0x7F#8).toNat = c.toNat % 2 ^ 7 := Nat.and_two_pow_sub_one_eq_mod c.toNat 7
  have hlt : c.toNat % 2 ^ 7 < 2 ^ 7 := Nat.mod_lt _ (by decide)
  rw [w12, BitVec.toNat_append, BitVec.toNat_setWidth, BitVec.toNat_setWidth, hdev, hcmd,
    ← Nat.shiftLeft_add_eq_or_of_lt hlt, Nat.shiftLeft_eq]

/-! ## The slots of a frame -/

/-- Slot `i + 1` of the frame carries the data bit that 30_encoding.md R78 gives it. -/
theorem frameSyms_getElem?_succ (p : Profile) (d c : Byte) {i : Nat} (hi : i < p.wCmd.toNat + p.wDev.toNat) :
    (frameSyms p d c)[i + 1]? = some ⟨bitBurst p (slotDataBit p (i + 1) c d), p.tSpace⟩ := by
  rw [frameSyms, List.append_assoc, List.singleton_append, List.getElem?_cons_succ, cmdFieldBits, devFieldBits]
  by_cases hc : i < p.wCmd.toNat
  · rw [List.getElem?_append_left (by simpa using hc)]
    simp [hc, slotDataBit]
  · have hd : i - p.wCmd.toNat < p.wDev.toNat := by omega
    rw [List.getElem?_append_right (by simpa using hc)]
    simp [hc, hd, slotDataBit]

/-- For fields of 7 and 5 bits the data bits of the slots, in time order, are those of `W12` from bit 0 upward. -/
theorem slotDataBit_succ_eq_w12 {p : Profile} (hcmd : p.wCmd = 7#4) (d c : Byte) {i : Nat} (hi : i < 12) :
    slotDataBit p (i + 1) c d = (w12 d c).getLsbD i := by
  simp [slotDataBit, dataBit_eq_getLsbD, getLsbD_w12 d c hi, hcmd]

/-- Settles O51: the slots carry their data bits, which are the bits of `W12`. -/
theorem frameSendsTheBitsOfTheWireWord : Obligations.FrameSendsTheBitsOfTheWireWord := by
  intro p d c i hcmd hdev hi
  have hslot : i < p.wCmd.toNat + p.wDev.toNat := by simpa [hcmd, hdev] using hi
  refine ⟨?_, toNat_w12 d c⟩
  rw [frameSyms_getElem?_succ p d c hslot, slotDataBit_succ_eq_w12 hcmd d c hi, bitBurst]

end Sys2Proof.Machine
end

section
/-!
SUPPORT. The encodings of spec/30_encoding.md: each format's decoder and encoder undo each other; and that frames tell pairs apart.
-/

namespace Sys2Proof.Machine

/-! ## A value and the list of its bits (20_memory.md R51, 30_encoding.md R78) -/

theorem dataBit_eq_testBit (v : Byte) (i : Nat) : dataBit v i = v.toNat.testBit i := dataBit_eq_getLsbD v i

theorem testBit_bitsValue (bs : List Bool) (i : Nat) : (bitsValue bs).testBit i = bs[i]?.getD false := by
  induction bs generalizing i with
  | nil => simp [bitsValue]
  | cons b bs ih =>
    cases i with
    | zero => cases b <;> simp [bitsValue, Nat.testBit_zero]
    | succ i =>
      have hhalf : bitsValue (b :: bs) / 2 = bitsValue bs := by rw [bitsValue]; split <;> omega
      rw [Nat.testBit_succ, hhalf, ih, List.getElem?_cons_succ]

theorem bitsValue_lt {bs : List Bool} {n : Nat} (hn : bs.length = n) : bitsValue bs < 2 ^ n :=
  Nat.lt_pow_two_of_testBit _ fun i hi => by simp [testBit_bitsValue, List.getElem?_eq_none (hn.trans_le hi)]

/-- The first `n` bits of a value, read back, are the value modulo `2^n`. -/
theorem bitsValue_map_dataBit (v : Byte) (n : Nat) : bitsValue ((List.range n).map (dataBit v)) = v.toNat % 2 ^ n := by
  apply Nat.eq_of_testBit_eq
  intro i
  rw [testBit_bitsValue, Nat.testBit_mod_two_pow, ← dataBit_eq_testBit]
  by_cases hi : i < n <;> simp [hi]

/-- A list of at most 8 bits is read back from the byte of its value. -/
theorem map_dataBit_ofNat_bitsValue {bs : List Bool} {n : Nat} (hn : bs.length = n) (h8 : n ≤ 8) :
    (List.range n).map (dataBit (BitVec.ofNat 8 (bitsValue bs))) = bs := by
  refine List.ext_getElem (by simp [hn]) fun i _ hi => ?_
  have hi8 : i < 8 := by omega
  rw [List.getElem_map, List.getElem_range, dataBit_eq_testBit, BitVec.toNat_ofNat, Nat.testBit_mod_two_pow,
    testBit_bitsValue, List.getElem?_eq_getElem hi]
  simp [hi8]

/-- A byte that fits a field of `n` bits is determined by that field. -/
theorem eq_of_map_dataBit_eq {v v' : Byte} {n : Nat} (hv : v.toNat < 2 ^ n) (hv' : v'.toNat < 2 ^ n)
    (h : (List.range n).map (dataBit v) = (List.range n).map (dataBit v')) : v = v' := by
  have hval := congrArg bitsValue h
  rw [bitsValue_map_dataBit, bitsValue_map_dataBit, Nat.mod_eq_of_lt hv, Nat.mod_eq_of_lt hv'] at hval
  exact BitVec.eq_of_toNat_eq hval

/-! ## The fields of a word (30_encoding.md R71, R73) -/

theorem append_eq_append_iff {w v : Nat} {x x' : BitVec w} {y y' : BitVec v} :
    x ++ y = x' ++ y' ↔ x = x' ∧ y = y' := by
  constructor
  · intro h
    have hx := congrArg (BitVec.extractLsb' v w) h
    rw [BitVec.extractLsb'_append_eq_left, BitVec.extractLsb'_append_eq_left] at hx
    exact ⟨hx, (BitVec.append_right_inj x').mp (hx ▸ h)⟩
  · rintro ⟨rfl, rfl⟩
    rfl

/-- The bits from bit `k` upward are all 0 exactly when the value is below `2^k`. -/
theorem and_allOnes_shiftLeft_eq_zero_iff {w : Nat} (x : BitVec w) (k : Nat) :
    x &&& (BitVec.allOnes w <<< k) = 0#w ↔ x.toNat < 2 ^ k := by
  constructor
  · intro h
    refine Nat.lt_pow_two_of_testBit _ fun i hi => ?_
    by_cases hw : i < w
    · have hbit : x.getLsbD i = false := by
        simpa [hw, Nat.not_lt.mpr hi, show i - k < w by omega] using congrArg (BitVec.getLsbD · i) h
      exact hbit
    · exact BitVec.getLsbD_of_ge x i (Nat.not_lt.mp hw)
  · intro h
    ext i hi
    by_cases hk : i < k
    · simp [hk]
    · have hzero : x.getLsbD i = false :=
        Nat.testBit_lt_two_pow (h.trans_le (Nat.pow_le_pow_right (by decide) (Nat.not_lt.mp hk)))
      simp [← BitVec.getLsbD_eq_getElem, hzero]

/-! ## `REQ16` (30_encoding.md R71, R72, R81) -/

theorem encodeReq_extract (w : BitVec 16) : encodeReq (w.extractLsb' 8 8) (w.extractLsb' 0 8) = w :=
  BitVec.extractLsb'_append_extractLsb' (w := 8) (len := 8)

/-- Match `0x0000` under mask `0xE080` is the test for a legal pair (30_encoding.md R72). -/
theorem encodeReq_and_mask_eq_zero_iff (d c : Byte) :
    encodeReq d c &&& 0xE080#16 = 0#16 ↔ d.toNat ≤ 31 ∧ c.toNat ≤ 127 := by
  have hmask : 0xE080#16 = (BitVec.allOnes 8 <<< 5) ++ (BitVec.allOnes 8 <<< 7) := by decide
  have hzero : 0#16 = 0#8 ++ 0#8 := by decide
  rw [hmask, hzero, encodeReq, BitVec.and_append, append_eq_append_iff, and_allOnes_shiftLeft_eq_zero_iff,
    and_allOnes_shiftLeft_eq_zero_iff]
  omega

/-- Every request word decodes to its own two bytes, as `TX` exactly when they are a legal pair. -/
theorem decodeReq_encodeReq_eq (d c : Byte) :
    decodeReq (encodeReq d c) = if legalPair d c then .tx d c else .txWide d c := by
  simp only [decodeReq, encodeReq_and_mask_eq_zero_iff, legalPair_iff, extract_device, extract_command]

theorem wellFormed_decodeReq (w : BitVec 16) : (decodeReq w).wellFormed = true := by
  rw [← encodeReq_extract w, decodeReq_encodeReq_eq]
  split
  · next h => exact h
  · next h => simpa [Instr.wellFormed] using h

theorem encode_decodeReq (w : BitVec 16) : encode (decodeReq w) = .req16 w := by
  rw [← encodeReq_extract w, decodeReq_encodeReq_eq]
  split <;> rfl

/-- Settles O42: the three conditions are those of a legal pair. -/
theorem legalPatternIsTheRangeCheck : Obligations.LegalPatternIsTheRangeCheck := by
  intro d c
  have hdec : decode (.req16 (d ++ c)) = .ok (if legalPair d c then .tx d c else .txWide d c) :=
    congrArg Except.ok (decodeReq_encodeReq_eq d c)
  refine ⟨?_, encodeReq_and_mask_eq_zero_iff d c, ?_⟩ <;> rw [hdec, ← legalPair_iff]
  · cases legalPair d c <;> simp
  · cases legalPair d c <;> simp

/-! ## `SYM17` (30_encoding.md R73, R74, R80) -/

theorem encodeSym_extract (w : BitVec 17) : encodeSym (w.extractLsb' 10 7) (w.extractLsb' 0 10) = w :=
  BitVec.extractLsb'_append_extractLsb' (w := 7) (len := 10)

@[simp] theorem extract_burst (n : BitVec 7) (s : BitVec 10) : (encodeSym n s).extractLsb' 10 7 = n :=
  BitVec.extractLsb'_append_eq_left

@[simp] theorem extract_space (n : BitVec 7) (s : BitVec 10) : (encodeSym n s).extractLsb' 0 10 = s :=
  BitVec.extractLsb'_append_eq_right

theorem encodeSym_inj {n n' : BitVec 7} {s s' : BitVec 10} : encodeSym n s = encodeSym n' s' ↔ n = n' ∧ s = s' :=
  append_eq_append_iff

theorem startWord_eq : startWord = encodeSym 96#7 600#10 := by decide
theorem oneWord_eq : oneWord = encodeSym 48#7 600#10 := by decide
theorem zeroWord_eq : zeroWord = encodeSym 24#7 600#10 := by decide

/-- The named symbols are the three words of 30_encoding.md R74. -/
theorem namedSymbol_iff (n : BitVec 7) (s : BitVec 10) : namedSymbol n s = true ↔
    encodeSym n s = startWord ∨ encodeSym n s = oneWord ∨ encodeSym n s = zeroWord := by
  simp only [startWord_eq, oneWord_eq, zeroWord_eq, encodeSym_inj, namedSymbol, Bool.and_eq_true, Bool.or_eq_true,
    beq_iff_eq]
  tauto

theorem decodeSym_encodeSym {n : BitVec 7} {s : BitVec 10} (h : namedSymbol n s = false) :
    decodeSym (encodeSym n s) = .sym n s := by
  rw [← Bool.not_eq_true, namedSymbol_iff] at h
  obtain ⟨hstart, hone, hzero⟩ : encodeSym n s ≠ startWord ∧ encodeSym n s ≠ oneWord ∧ encodeSym n s ≠ zeroWord := by
    simpa using h
  simp [decodeSym, hstart, hone, hzero]

theorem wellFormed_decodeSym (w : BitVec 17) : (decodeSym w).wellFormed = true := by
  unfold decodeSym
  split_ifs with hstart hone hzero
  · rfl
  · rfl
  · rfl
  · have hnamed := namedSymbol_iff (w.extractLsb' 10 7) (w.extractLsb' 0 10)
    rw [encodeSym_extract] at hnamed
    simpa [Instr.wellFormed, hstart, hone, hzero] using hnamed

theorem encode_decodeSym (w : BitVec 17) : encode (decodeSym w) = .sym17 w := by
  unfold decodeSym
  split_ifs with hstart hone hzero
  · rw [hstart, encode]
  · rw [hone, encode]
  · rw [hzero, encode]
  · rw [encode, encodeSym_extract]

/-! ## `PHASE3` (30_encoding.md R75, R83) -/

theorem wellFormed_and_encode_of_decodePhase {w : BitVec 3} {i : Instr} (h : decodePhase w = .ok i) :
    i.wellFormed = true ∧ encode i = .phase3 w := by
  unfold decodePhase at h
  split_ifs at h with h0 h1 h2 h3 h4 <;> cases h
  · exact ⟨rfl, congrArg Code.phase3 h0.symm⟩
  · exact ⟨rfl, congrArg Code.phase3 h1.symm⟩
  · exact ⟨rfl, congrArg Code.phase3 h2.symm⟩
  · exact ⟨rfl, congrArg Code.phase3 h3.symm⟩
  · exact ⟨rfl, congrArg Code.phase3 h4.symm⟩

/-- Settles O43: the eight codes one by one. -/
theorem phaseCodesAreFiveAndThreeAreReserved : Obligations.PhaseCodesAreFiveAndThreeAreReserved := by
  refine ⟨fun w => ?_, rfl, rfl, rfl, rfl, rfl⟩
  obtain ⟨n, hn⟩ := w
  interval_cases n <;> rfl

/-! ## `WIRE13` (30_encoding.md R76) -/

theorem slotBit_eq_some_iff (w : BitVec 17) (b : Bool) : slotBit w = some b ↔ w = slotWord b := by
  have hne : oneWord ≠ zeroWord := by decide
  by_cases hone : w = oneWord
  · cases b <;> simp [slotBit, slotWord, hone, hne]
  · cases b <;> simp [slotBit, slotWord, hone]

/-- A list of slots carries the bits that spell it, and no others. -/
theorem slotBits_eq_some_iff (ws : List (BitVec 17)) (bs : List Bool) :
    slotBits ws = some bs ↔ ws = bs.map slotWord := by
  induction ws generalizing bs with
  | nil => cases bs <;> simp [slotBits]
  | cons w ws ih =>
    cases bs with
    | nil => unfold slotBits; split <;> simp
    | cons b bs =>
      rw [List.map_cons, List.cons.injEq, ← slotBit_eq_some_iff, ← ih, slotBits]
      split
      · next hb hbs => simp [hb, hbs]
      · next h => simpa using fun hb hbs => h b bs hb hbs

/-- Exactly the lists of a start word and 12 bit words decode, to the frame that carries the bits. -/
theorem decodeWire_eq_ok_iff (slots : List (BitVec 17)) (i : Instr) : decodeWire slots = .ok i ↔
    ∃ bits : List Bool, bits.length = cmdSlots + devSlots ∧ slots = startWord :: bits.map slotWord
      ∧ i = .frame (BitVec.ofNat 8 (bitsValue (bits.drop cmdSlots))) (BitVec.ofNat 8 (bitsValue (bits.take cmdSlots))) := by
  constructor
  · intro h
    unfold decodeWire at h
    split at h
    · cases h
    · next s data =>
      split_ifs at h with hlen hstart
      split at h
      · cases h
      · next bits hbits =>
        rw [slotBits_eq_some_iff] at hbits
        subst hbits
        exact ⟨bits, by simpa using hlen, by rw [not_not.mp hstart], (Except.ok.inj h).symm⟩
  · rintro ⟨bits, hlen, rfl, rfl⟩
    have hbits : slotBits (bits.map slotWord) = some bits := (slotBits_eq_some_iff _ _).mpr rfl
    simp [decodeWire, hlen, hbits]

@[simp] theorem length_dataBits (d c : Byte) : (dataBits d c).length = cmdSlots + devSlots := by simp [dataBits]

theorem take_dataBits (d c : Byte) : (dataBits d c).take cmdSlots = (List.range cmdSlots).map (dataBit c) :=
  List.take_left' (by simp)

theorem drop_dataBits (d c : Byte) : (dataBits d c).drop cmdSlots = (List.range devSlots).map (dataBit d) :=
  List.drop_left' (by simp)

theorem decodeWire_encodeFrame {d c : Byte} (h : legalPair d c = true) : decodeWire (encodeFrame d c) = .ok (.frame d c) := by
  obtain ⟨hd, hc⟩ := (legalPair_iff d c).mp h
  have hdev : d.toNat % 2 ^ devSlots = d.toNat := Nat.mod_eq_of_lt (Nat.lt_succ_of_le hd)
  have hcmd : c.toNat % 2 ^ cmdSlots = c.toNat := Nat.mod_eq_of_lt (Nat.lt_succ_of_le hc)
  refine (decodeWire_eq_ok_iff _ _).mpr ⟨dataBits d c, length_dataBits d c, rfl, ?_⟩
  rw [take_dataBits, drop_dataBits, bitsValue_map_dataBit, bitsValue_map_dataBit, hdev, hcmd, BitVec.ofNat_toNat,
    BitVec.ofNat_toNat, BitVec.setWidth_eq, BitVec.setWidth_eq]

theorem wellFormed_and_encode_of_decodeWire {slots : List (BitVec 17)} {i : Instr} (h : decodeWire slots = .ok i) :
    i.wellFormed = true ∧ encode i = .wire13 slots := by
  obtain ⟨bits, hlen, rfl, rfl⟩ := (decodeWire_eq_ok_iff _ _).mp h
  have hcmd : (bits.take cmdSlots).length = cmdSlots := by simp [hlen]
  have hdev : (bits.drop cmdSlots).length = devSlots := by simp [hlen]
  constructor
  · have hc : bitsValue (bits.take cmdSlots) < 128 := bitsValue_lt hcmd
    have hd : bitsValue (bits.drop cmdSlots) < 32 := bitsValue_lt hdev
    rw [Instr.wellFormed, legalPair_iff, BitVec.toNat_ofNat, BitVec.toNat_ofNat]
    omega
  · rw [encode, encodeFrame, dataBits, map_dataBit_ofNat_bitsValue hcmd (by decide),
      map_dataBit_ofNat_bitsValue hdev (by decide), List.take_append_drop]

/-! ## Format `MACRO` (30_encoding.md R80) -/

theorem wellFormed_and_encode_of_written {i : Instr} (h : i.format = .written) :
    i.wellFormed = true ∧ encode i = .written i := by
  cases i <;> cases h <;> exact ⟨rfl, rfl⟩

/-! ## Decoding and encoding -/

/-- Settles O40, format by format. -/
theorem decodeOfEncodeIsTheInstruction : Obligations.DecodeOfEncodeIsTheInstruction := by
  intro i hi
  cases i
  case tx d c =>
    have hlegal : legalPair d c = true := hi
    simp [encode, decode, decodeReq_encodeReq_eq, hlegal]
  case txWide d c =>
    have hwide : legalPair d c = false := by simpa [Instr.wellFormed] using hi
    simp [encode, decode, decodeReq_encodeReq_eq, hwide]
  case sym n s =>
    have hother : namedSymbol n s = false := by simpa [Instr.wellFormed] using hi
    exact congrArg Except.ok (decodeSym_encodeSym hother)
  case frame d c => exact decodeWire_encodeFrame hi
  all_goals rfl

/-- Settles O41, format by format. -/
theorem encodeOfDecodeIsTheCode : Obligations.EncodeOfDecodeIsTheCode := by
  intro k i hd
  cases k with
  | req16 w => cases hd; exact ⟨wellFormed_decodeReq w, encode_decodeReq w⟩
  | sym17 w => cases hd; exact ⟨wellFormed_decodeSym w, encode_decodeSym w⟩
  | phase3 w => exact wellFormed_and_encode_of_decodePhase hd
  | wire13 slots => exact wellFormed_and_encode_of_decodeWire hd
  | written j =>
    have hj : i.format = .written := decode_format hd
    rw [decode_eq_written hd hj]
    exact wellFormed_and_encode_of_written hj
  | rst => cases hd; exact ⟨rfl, rfl⟩

/-- Settles O44: each word is evaluated. -/
theorem wordsOfTheSpecDecodeAsItSays : Obligations.WordsOfTheSpecDecodeAsItSays :=
  ⟨rfl, rfl, rfl, rfl, rfl, rfl, rfl, rfl, rfl, rfl, rfl, rfl, rfl, rfl⟩

/-! ## A frame determines its pair (30_encoding.md R77, 41_bit.md R127) -/

/-- `N_ONE > N_ZERO` (00_scope.md R11): a burst tells its bit. -/
theorem bitBurst_injective {p : Profile} (h : p.valid = true) : Function.Injective (bitBurst p) := by
  obtain ⟨hlt, -⟩ := p.valid_iff.mp h
  have hne : p.nOne ≠ p.nZero := fun e => Nat.lt_irrefl _ (e ▸ hlt)
  intro a b hab
  cases a <;> cases b <;> simp_all [bitBurst]

theorem fieldBits_eq_of_frameSyms_eq {p : Profile} (hv : p.valid = true) {d c d' c' : Byte}
    (h : frameSyms p d c = frameSyms p d' c') :
    devFieldBits p d = devFieldBits p d' ∧ cmdFieldBits p c = cmdFieldBits p c' := by
  have hinj : Function.Injective fun b => (⟨bitBurst p b, p.tSpace⟩ : Symbol) :=
    fun a b hab => bitBurst_injective hv (congrArg Symbol.burst hab)
  obtain ⟨hcmd, hdev⟩ := List.append_inj h (by simp [cmdFieldBits])
  exact ⟨List.map_injective_iff.mpr hinj hdev, List.map_injective_iff.mpr hinj (List.append_cancel_left hcmd)⟩

/-- Settles O50: equal frames have equal field bits, and a value that fits its field is determined by them. -/
theorem legalPairsHaveDifferentFrames : Obligations.LegalPairsHaveDifferentFrames := by
  intro p d c d' c' hv hd hc hd' hc' h
  obtain ⟨hdev, hcmd⟩ := fieldBits_eq_of_frameSyms_eq hv h
  exact ⟨eq_of_map_dataBit_eq hd hd' hdev, eq_of_map_dataBit_eq hc hc' hcmd⟩

end Sys2Proof.Machine
end

section
/-!
SUPPORT. Time in a busy phase (spec/10_state.md R30): while `rst` is 0 a segment runs for `TCNT` ticks, whatever the request ports
show, and the phase ends in the last of them.
-/

namespace Sys2Proof.Machine

/-! ## Ticks without reset -/

/-- `n` ticks pass at the level of the pin and use up as many of the ports in the script; no register is written. -/
def State.hold (n : Nat) (s : State) : State := { s.elapse n with script := s.script.drop n }

/-- `rst` stays at 0 for `m + n` ticks when it does for `m` ticks and then for `n` more. -/
theorem State.noResetFor_add (m n : Nat) (s : State) :
    s.NoResetFor (m + n) ↔ s.NoResetFor m ∧ (s.hold m).NoResetFor n := by
  simp only [State.NoResetFor, State.hold, List.take_add, List.forall_mem_append]

/-- With `rst` at 0 and no call next, the step is a tick, and uses up the ports of that tick if the script has any. -/
theorem State.NoResetFor.tick {s : State} (h : s.NoResetFor 1) :
    s.TickNext ∧ s.portsNow.rst = false ∧ s.consume.elapse 1 = s.hold 1 := by
  cases hs : s.script with
  | nil =>
    refine ⟨by simp [State.TickNext, State.nextIsTick, hs], by simp [State.portsNow, hs, Ports.quiet], ?_⟩
    simp [State.consume_nil hs, State.hold, State.elapse, hs]
  | cons a rest =>
    have ha : a.leavesResetLow = true := h a (by simp [hs])
    cases a with
    | ports p =>
      refine ⟨by simp [State.TickNext, State.nextIsTick, hs], ?_, ?_⟩
      · simpa [State.portsNow, hs, HostAction.leavesResetLow] using ha
      · simp [State.consume_ports hs, State.hold, State.elapse, hs]
    | symbol w => cases ha
    | wire slots => cases ha
    | call i => cases ha

/-- In a busy phase a tick without reset is that of the phase (43_transmit.md R175, R180). -/
theorem step_of_busy {s : State} (hb : s.phase ≠ .idle) (h : s.NoResetFor 1) : step s = .next (s.hold 1).phaseTick := by
  obtain ⟨hn, hr, hc⟩ := h.tick
  rw [step_of_phase hn hr (.inl hb), hc]

/-! ## A segment -/

/-- `s` after `n` ticks of a segment, with the last of them still to be counted. -/
def State.lastTick (n : Nat) (s : State) : State := { s.hold n with tcnt := 1 }

/-- Counting down in the first tick leaves the last tick where it was. -/
theorem State.lastTick_countDown (n : Nat) (s : State) : (s.hold 1).countDown.lastTick n = s.lastTick (n + 1) := by
  simp [State.lastTick, State.hold, State.countDown, State.elapse, pushLevel_pushLevel, Nat.add_comm 1]

/-- `TCNT` counts down in all ticks of the segment but the last, which is the tick that ends the phase. -/
theorem run_segment {n : Nat} {s : State} (hb : s.phase ≠ .idle) (ht : s.tcnt = n) (hn : 1 ≤ n) (h : s.NoResetFor n) :
    run n s = .next (s.lastTick n).phaseTick := by
  induction n, hn using Nat.le_induction generalizing s with
  | base =>
    have hlast : s.hold 1 = s.lastTick 1 := by simp [State.lastTick, State.hold, State.elapse, ht]
    rw [run_succ (step_of_busy hb h), run_zero, hlast]
  | succ n hn ih =>
    obtain ⟨hfirst, hrest⟩ := (State.noResetFor_add 1 n s).mp (Nat.add_comm n 1 ▸ h)
    have hcounting : 1 < (s.hold 1).tcnt := ht ▸ Nat.lt_succ_of_le hn
    have hleft : (s.hold 1).countDown.tcnt = n := congrArg (· - 1) ht
    have hstep : step s = .next (s.hold 1).countDown := by
      rw [step_of_busy hb hfirst, State.phaseTick_of_counting (s := s.hold 1) hb hcounting]
    rw [run_succ hstep, ih (s := (s.hold 1).countDown) hb hleft hrest, State.lastTick_countDown]

end Sys2Proof.Machine
end

section
/-!
SUPPORT. The CarrierGenerator family (spec/40_carrier.md): the operations realised as a whole, the ticks of `HIGH` and `LOW`, and how
long they last.
-/

namespace Sys2Proof.Machine

/-! ## The operations realised as a whole -/

/-- Settles O17: `exec` writes the pin and nothing else. -/
theorem pinWriteSetsThePinAndTakesNoTime : Obligations.PinWriteSetsThePinAndTakesNoTime := fun _ _ => rfl

/-- Settles O18: both operations are `State.delay`. -/
theorem delaysHoldThePinForTheirDuration : Obligations.DelaysHoldThePinForTheirDuration := fun _ _ => ⟨rfl, rfl⟩

/-- Settles O19, by the law of `State.emitPulse`. -/
theorem pulseIsOneCarrierCycle : Obligations.PulseIsOneCarrierCycle :=
  fun s => congrArg Host.Outcome.next s.emitPulse_eq

/-- Settles O20, by the two laws of `State.emitBurst`. -/
theorem burstIsSoManyCarrierCycles : Obligations.BurstIsSoManyCarrierCycles := by
  intro n s
  have hexec : exec (.burst n) s = .next (s.emitBurst n) := rfl
  have hzero : n = 0#7 ↔ n.toNat = 0 := BitVec.toNat_inj.symm
  refine ⟨fun hn => ?_, fun hn => ?_⟩
  · rw [hexec, hzero.mpr hn, State.emitBurst_zero]
  · rw [hexec, State.emitBurst_eq (mt hzero.mp hn)]
    rfl

/-! ## One tick of `HIGH` and of `LOW` (43_transmit.md R180) -/

theorem State.highTick_of_counting (s : State) (ht : 1 < s.tcnt) : s.highTick = s.countDown := if_pos ht

theorem State.highTick_of_last (s : State) (ht : s.tcnt ≤ 1) : s.highTick = s.enterLow := if_neg (Nat.not_lt.mpr ht)

theorem State.lowTick_of_counting (s : State) (ht : 1 < s.tcnt) : s.lowTick = s.countDown := if_pos ht

/-- The cycle is over and another is left (40_carrier.md R111). -/
theorem State.lowTick_of_cycleEnd (s : State) (ht : s.tcnt ≤ 1) (hc : 1 < s.pcnt.toNat) :
    s.lowTick = { s.enterHigh with pcnt := s.pcnt - 1#7 } := by
  have hc' : 1#7 < s.pcnt := hc
  rw [State.lowTick, if_neg (Nat.not_lt.mpr ht), if_pos hc']

/-- The last cycle is over (40_carrier.md R111). -/
theorem State.lowTick_of_burstEnd (s : State) (ht : s.tcnt ≤ 1) (hc : s.pcnt.toNat ≤ 1) :
    s.lowTick = { s.enterSpace with pcnt := 0#7 } := by
  have hc' : ¬1#7 < s.pcnt := Nat.not_lt.mpr hc
  rw [State.lowTick, if_neg (Nat.not_lt.mpr ht), if_neg hc']

/-- Settles O13: the tick counts down or ends the phase. -/
theorem highTickCountsDownThenEntersLow : Obligations.HighTickCountsDownThenEntersLow := by
  intro s
  have hexec : exec .phHigh s = .next (s.elapse 1).highTick := rfl
  refine ⟨fun ht => ?_, fun ht => ?_⟩
  · rw [hexec, (s.elapse 1).highTick_of_counting ht]
    rfl
  · rw [hexec, (s.elapse 1).highTick_of_last ht]
    rfl

/-- Settles O14: the tick counts down, ends a cycle or ends the burst. -/
theorem lowTickCountsDownThenNextCycleOrSpace : Obligations.LowTickCountsDownThenNextCycleOrSpace := by
  intro s
  have hexec : exec .phLow s = .next (s.elapse 1).lowTick := rfl
  refine ⟨fun ht => ?_, fun ht hc => ?_, fun ht hc => ?_⟩
  · rw [hexec, (s.elapse 1).lowTick_of_counting ht]
    rfl
  · rw [hexec, (s.elapse 1).lowTick_of_cycleEnd ht hc]
    rfl
  · rw [hexec, (s.elapse 1).lowTick_of_burstEnd ht hc]
    rfl

/-! ## The segments of a cycle (40_carrier.md R110, R111) -/

theorem State.phaseTick_of_high (s : State) (hp : s.phase = .high) : s.phaseTick = s.highTick := by
  simp only [State.phaseTick, hp]

theorem State.phaseTick_of_low (s : State) (hp : s.phase = .low) : s.phaseTick = s.lowTick := by
  simp only [State.phaseTick, hp]

/-- Settles O56: a segment runs for `TCNT` ticks, and its last tick ends the phase. -/
theorem carrierPhasesLastTheirTicks : Obligations.CarrierPhasesLastTheirTicks := by
  intro s n ht hn h
  have hsegment (hb : s.phase ≠ .idle) := run_segment hb ht hn h
  refine ⟨fun hp => ?_, fun hp hc => ?_, fun hp hc => ?_⟩
  · rw [hsegment (by simp [hp]), (s.lastTick n).phaseTick_of_high hp, (s.lastTick n).highTick_of_last le_rfl]
    rfl
  · rw [hsegment (by simp [hp]), (s.lastTick n).phaseTick_of_low hp, (s.lastTick n).lowTick_of_cycleEnd le_rfl hc]
    rfl
  · rw [hsegment (by simp [hp]), (s.lastTick n).phaseTick_of_low hp, (s.lastTick n).lowTick_of_burstEnd le_rfl hc]
    rfl

/-! ## A cycle and a burst (40_carrier.md R106), in every profile -/

/-- The machine is in the first tick of a carrier cycle. -/
structure State.CycleStart (s : State) : Prop where
  phase : s.phase = .high
  pin : s.pin = .high
  tcnt : s.tcnt = s.cfg.profile.tHigh.toNat

/-- `s` after a cycle that is not the last of its burst. -/
def State.nextCycle (s : State) : State :=
  { s with
    pcnt := s.pcnt - 1#7
    script := s.script.drop s.cfg.profile.tCycle
    pinLog := pushWave (wavePulse s.cfg.profile) s.pinLog }

/-- `s` after the last `n` cycles of its burst: the space begins. -/
def State.burstEnd (n : Nat) (s : State) : State :=
  { s.enterSpace with
    pcnt := 0#7
    script := s.script.drop (s.cfg.profile.tCycle * n)
    pinLog := pushWave (rep n (wavePulse s.cfg.profile)) s.pinLog }

theorem State.CycleStart.nextCycle {s : State} (h : s.CycleStart) : s.nextCycle.CycleStart := ⟨h.phase, h.pin, h.tcnt⟩

/-- A cycle and `n` more are `n + 1` cycles. -/
theorem State.burstEnd_nextCycle (n : Nat) (s : State) : s.nextCycle.burstEnd n = s.burstEnd (n + 1) := by
  simp [State.burstEnd, State.nextCycle, State.enterSpace, rep, pushWave_append, Nat.mul_succ, Nat.add_comm]

/-- `T_HIGH` ticks after the first tick of a cycle comes the first tick of its `LOW`, and `T_LOW` ticks after that the next cycle or,
after the last cycle, the space. -/
theorem run_cycle {s : State} (hs : s.CycleStart) (h : s.NoResetFor s.cfg.profile.tCycle) :
    (1 < s.pcnt.toNat → run s.cfg.profile.tCycle s = .next s.nextCycle)
    ∧ (s.pcnt.toNat ≤ 1 → run s.cfg.profile.tCycle s = .next (s.burstEnd 1)) := by
  obtain ⟨hphase, hpin, htcnt⟩ := hs
  obtain ⟨-, -, -, hposHigh, hposLow, -⟩ := s.cfg.profile.valid_iff.mp s.cfg.valid
  obtain ⟨hhigh, hlow⟩ := (State.noResetFor_add _ _ s).mp h
  obtain ⟨hrunHigh, -⟩ := carrierPhasesLastTheirTicks s _ htcnt hposHigh hhigh
  obtain ⟨-, hnext, hspace⟩ :=
    carrierPhasesLastTheirTicks (s.hold s.cfg.profile.tHigh.toNat).enterLow _ rfl hposLow hlow
  refine ⟨fun hc => ?_, fun hc => ?_⟩
  · refine (run_add (hrunHigh hphase) _).trans ((hnext rfl hc).trans ?_)
    simp [State.nextCycle, State.hold, Profile.tCycle, wavePulse, hphase, hpin, htcnt]
  · refine (run_add (hrunHigh hphase) _).trans ((hspace rfl hc).trans ?_)
    simp [State.burstEnd, State.enterSpace, State.hold, Profile.tCycle, wavePulse, rep, hpin]

/-- From the first tick of a burst of `n` cycles, `T_CYCLE` ticks a cycle put `wave(BURST n)` on the pin and lead to the space. -/
theorem run_burst {n : Nat} {s : State} (hs : s.CycleStart) (hc : s.pcnt.toNat = n) (hn : 1 ≤ n)
    (h : s.NoResetFor (s.cfg.profile.tCycle * n)) : run (s.cfg.profile.tCycle * n) s = .next (s.burstEnd n) := by
  induction n, hn using Nat.le_induction generalizing s with
  | base =>
    rw [Nat.mul_one] at h ⊢
    exact (run_cycle hs h).2 hc.le
  | succ n hn ih =>
    rw [Nat.mul_succ, Nat.add_comm] at h ⊢
    obtain ⟨hcycle, hrest⟩ := (State.noResetFor_add _ _ s).mp h
    obtain ⟨hfirst, -⟩ := run_cycle hs hcycle
    have hleft : s.nextCycle.pcnt.toNat = n := by simp only [State.nextCycle]; bv_omega
    rw [run_add (hfirst (by omega))]
    exact (ih hs.nextCycle hleft hrest).trans (congrArg _ (s.burstEnd_nextCycle n))

/-- Settles O58: a burst in `SIRC12`, whose cycle has 25 ticks. -/
theorem burstLastsTwentyFiveTicksACycle : Obligations.BurstLastsTwentyFiveTicksACycle := by
  intro s n hprof hphase hpin htcnt hpcnt hn h
  have hcycle : sirc12.tCycle = 25 := rfl
  have hstart : s.CycleStart := ⟨hphase, hpin, by rw [htcnt, hprof]; rfl⟩
  have hrun := run_burst hstart (congrArg BitVec.toNat hpcnt) hn (by rwa [hprof, hcycle])
  simp only [State.burstEnd, State.enterSpace, hprof, hcycle] at hrun
  exact hrun

end Sys2Proof.Machine
end

section
/-!
SUPPORT. The BitEncoder family (spec/41_bit.md): the space, the symbols and the data bits realised as a whole, and the tick of
`SPACE`.
-/

namespace Sys2Proof.Machine

/-! ## One tick of `SPACE` (43_transmit.md R180) -/

theorem State.spaceTick_of_counting (s : State) (ht : 1 < s.tcnt) : s.spaceTick = s.countDown := if_pos ht

/-- The space is over and another symbol is left (41_bit.md R122): its burst begins, which is never empty. -/
theorem State.spaceTick_of_symbolEnd (s : State) (ht : s.tcnt ≤ 1) (hc : s.sym.toNat < s.cfg.profile.lastSym) :
    s.spaceTick = { s with
      sym := s.sym + 1#4, phase := .high, pin := .high, tcnt := s.cfg.profile.tHigh.toNat
      pcnt := pulses s.cfg.profile (s.sym + 1#4) s.cmd s.dev } := by
  rw [State.spaceTick, if_neg (Nat.not_lt.mpr ht), if_pos hc, State.beginSymbol_eq]

/-- The last space of the frame is over (43_transmit.md R176). -/
theorem State.spaceTick_of_frameEnd (s : State) (ht : s.tcnt ≤ 1) (hc : s.cfg.profile.lastSym ≤ s.sym.toNat) :
    s.spaceTick = s.enterGap := by
  rw [State.spaceTick, if_neg (Nat.not_lt.mpr ht), if_neg (Nat.not_lt.mpr hc)]

/-- A gap of no ticks is skipped (43_transmit.md R176). -/
theorem State.enterGap_of_noGap (s : State) (hg : s.cfg.gapUs = 0) : s.enterGap = s.enterIdle := if_pos hg

theorem State.enterGap_of_gap (s : State) (hg : s.cfg.gapUs ≠ 0) :
    s.enterGap = { s with phase := .gap, tcnt := s.cfg.gapUs } := if_neg hg

/-- Settles O15: the tick counts down, begins the next symbol or ends the frame. -/
theorem spaceTickCountsDownThenNextSymbolOrGap : Obligations.SpaceTickCountsDownThenNextSymbolOrGap := by
  intro s
  have hexec : exec .phSpace s = .next (s.elapse 1).spaceTick := rfl
  refine ⟨fun ht => ?_, fun ht hc => ⟨?_, pulses_ne_zero s.cfg.valid _ _ _⟩, fun ht hc hg => ?_, fun ht hc hg => ?_⟩
  · rw [hexec, (s.elapse 1).spaceTick_of_counting ht]
    rfl
  · rw [hexec, (s.elapse 1).spaceTick_of_symbolEnd ht hc]
    rfl
  · rw [hexec, (s.elapse 1).spaceTick_of_frameEnd ht hc, (s.elapse 1).enterGap_of_noGap hg]
    rfl
  · rw [hexec, (s.elapse 1).spaceTick_of_frameEnd ht hc, (s.elapse 1).enterGap_of_gap hg]
    rfl

/-! ## The operations realised as a whole -/

/-- Settles O21, by the law of `State.emitSpace`. -/
theorem spaceHoldsThePinLow : Obligations.SpaceHoldsThePinLow :=
  fun s => congrArg Host.Outcome.next s.emitSpace_eq

/-- Settles O22, by the law of `State.emitSymbol`. -/
theorem symbolIsABurstThenASpace : Obligations.SymbolIsABurstThenASpace := by
  intro n w s
  have hexec : exec (.sym n w) s = .next (s.emitSymbol n w) := rfl
  have hzero : n = 0#7 ↔ n.toNat = 0 := BitVec.toNat_inj.symm
  rw [hexec, State.emitSymbol_eq]
  simp only [hzero]
  rfl

/-- In `SIRC12` a symbol with a burst and the space of the profile is cycles of 12 ticks high and 13 low, then 600 ticks low. -/
theorem State.emitSymbol_sirc12 {s : State} (hprof : s.cfg.profile = sirc12) {n : BitVec 7} (hn : n ≠ 0#7) :
    s.emitSymbol n 600#10 = { s with
      pin := .low, tcnt := 0, pcnt := 0#7
      pinLog := pushWave (rep n.toNat [⟨.high, 12⟩, ⟨.low, 13⟩] ++ [⟨.low, 600⟩]) s.pinLog } := by
  rw [State.emitSymbol_eq, if_neg hn, hprof]
  rfl

/-- Settles O23: each operation is the symbol of its burst length, from the profile or from its own word. -/
theorem bitAndStartSymbolsHaveTheirBurstLengths : Obligations.BitAndStartSymbolsHaveTheirBurstLengths := by
  intro s hprof sends
  have hsends {i : Instr} (n : BitVec 7) (hn : n ≠ 0#7) (hi : exec i s = .next (s.emitSymbol n 600#10)) :
      exec i s = .next (sends n.toNat) := hi.trans (congrArg _ (State.emitSymbol_sirc12 hprof hn))
  have hbit (b : Bool) : exec (.bit b) s = .next (s.emitSymbol (if b then 48#7 else 24#7) 600#10) := by
    rw [exec, execBit, State.emitBit_eq, hprof]
    rfl
  have hstart : exec .start s = .next (s.emitSymbol 96#7 600#10) := by
    rw [exec, execStart, State.emitStart_eq, hprof]
    rfl
  exact ⟨hsends 48#7 (by decide) (hbit true), hsends 48#7 (by decide) rfl,
    hsends 24#7 (by decide) (hbit false), hsends 24#7 (by decide) rfl,
    hsends 96#7 (by decide) hstart, hsends 96#7 (by decide) rfl⟩

end Sys2Proof.Machine
end

section
/-!
SUPPORT. The frame as data (spec/42_frame.md R147 to R150): its list of symbols, the waveform of that list, and that both depend on
the bits of the two fields only.
-/

namespace Sys2Proof.Machine

/-! ## The list of symbols (42_frame.md R147) -/

/-- The symbol of a data bit (30_encoding.md R79, 41_bit.md R124). -/
def bitSymbol (p : Profile) (b : Bool) : Symbol := ⟨bitBurst p b, p.tSpace⟩

@[simp] theorem length_cmdFieldBits (p : Profile) (c : Byte) : (cmdFieldBits p c).length = p.wCmd.toNat := by
  simp [cmdFieldBits]

@[simp] theorem length_devFieldBits (p : Profile) (d : Byte) : (devFieldBits p d).length = p.wDev.toNat := by
  simp [devFieldBits]

/-- The start symbol, then the symbols of the data bits in time order. -/
theorem frameSyms_eq (p : Profile) (d c : Byte) :
    frameSyms p d c = ⟨p.nStart, p.tSpace⟩ :: (cmdFieldBits p c ++ devFieldBits p d).map (bitSymbol p) := by
  rw [List.map_append]
  rfl

/-- Every symbol of a frame in a valid profile has a burst and a space (00_scope.md R11). -/
theorem symbol_nonempty {p : Profile} (hv : p.valid = true) {d c : Byte} {y : Symbol} (hy : y ∈ frameSyms p d c) :
    y.burst ≠ 0#7 ∧ y.space ≠ 0#10 := by
  obtain ⟨-, -, hstart, -, -, hspace, -, -⟩ := p.valid_iff.mp hv
  have hspace' : p.tSpace ≠ 0#10 := fun e => by simp [e] at hspace
  rw [frameSyms_eq, List.mem_cons, List.mem_map] at hy
  rcases hy with rfl | ⟨b, -, rfl⟩
  · exact ⟨fun e => by simp [show p.nStart = 0#7 from e] at hstart, hspace'⟩
  · exact ⟨bitBurst_ne_zero hv b, hspace'⟩

/-- Settles O45: the list is the start symbol and one symbol for each bit of the two fields. -/
theorem everyFrameHasThirteenSymbols : Obligations.EveryFrameHasThirteenSymbols := by
  intro p d c
  have hlen (p : Profile) : (frameSyms p d c).length = 1 + p.wCmd.toNat + p.wDev.toNat := by
    simp [frameSyms_eq, Nat.add_comm, Nat.add_left_comm]
  exact ⟨hlen p, hlen sirc12, fun hv _ hy => symbol_nonempty hv hy⟩

/-- Settles O46: slot 0 has the start burst in both, and a later slot the burst of its data bit. -/
theorem pulsesAgreeWithTheFrameAsAList : Obligations.PulsesAgreeWithTheFrameAsAList := by
  intro p d c s hs
  by_cases h0 : s = 0#4
  · rw [h0]
    rfl
  · obtain ⟨i, hi⟩ := Nat.exists_eq_add_one_of_ne_zero (BitVec.toNat_ne_iff_ne.mpr h0)
    rw [hi] at hs
    rw [pulses, if_neg h0, hi, frameSyms_getElem?_succ p d c hs]

/-! ## The waveform of the list (42_frame.md R147) -/

/-- `CMDBITS` and `DEVBITS` put the waveforms of their bits' symbols on the pin. -/
theorem waveSyms_map_bitSymbol (p : Profile) (bs : List Bool) : waveSyms p (bs.map (bitSymbol p)) = waveBits p bs := by
  induction bs with
  | nil => rfl
  | cons b bs ih => rw [List.map_cons, waveSyms, ih]; rfl

theorem waveFrame_eq_waveBits (p : Profile) (d c : Byte) :
    waveFrame p d c = waveStart p ++ waveBits p (cmdFieldBits p c ++ devFieldBits p d) := by
  rw [waveBits_append, ← List.append_assoc]
  rfl

theorem waveFrame_eq_waveSyms (p : Profile) (d c : Byte) : waveFrame p d c = waveSyms p (frameSyms p d c) := by
  rw [frameSyms_eq, waveSyms, waveSyms_map_bitSymbol, waveFrame_eq_waveBits]
  rfl

/-- Settles O48: the start symbol is `START`, and the other symbols are those of the data bits. -/
theorem frameWaveformIsThatOfItsSymbols : Obligations.FrameWaveformIsThatOfItsSymbols := waveFrame_eq_waveSyms

/-! ## Bits above a field are not sent (42_frame.md R149) -/

/-- A field of `n` bits is that of the value modulo `2^n`. -/
theorem map_dataBit_congr {v v' : Byte} {n : Nat} (h : v.toNat % 2 ^ n = v'.toNat % 2 ^ n) :
    (List.range n).map (dataBit v) = (List.range n).map (dataBit v') := by
  refine List.map_congr_left fun i hi => ?_
  have hbit := congrArg (Nat.testBit · i) h
  simpa [Nat.testBit_mod_two_pow, List.mem_range.mp hi, dataBit_eq_testBit] using hbit

theorem frameSyms_congr {p : Profile} {d c d' c' : Byte} (hd : d.toNat % 2 ^ p.wDev.toNat = d'.toNat % 2 ^ p.wDev.toNat)
    (hc : c.toNat % 2 ^ p.wCmd.toNat = c'.toNat % 2 ^ p.wCmd.toNat) : frameSyms p d c = frameSyms p d' c' := by
  have hcmd : cmdFieldBits p c = cmdFieldBits p c' := map_dataBit_congr hc
  have hdev : devFieldBits p d = devFieldBits p d' := map_dataBit_congr hd
  rw [frameSyms, hcmd, hdev, ← frameSyms]

/-- `d & 0x1F` (42_frame.md R149). -/
theorem toNat_and_0x1F (d : Byte) : (d &&& 0x1F#8).toNat = d.toNat % 2 ^ sirc12.wDev.toNat :=
  Nat.and_two_pow_sub_one_eq_mod d.toNat 5

/-- `c & 0x7F` (42_frame.md R149). -/
theorem toNat_and_0x7F (c : Byte) : (c &&& 0x7F#8).toNat = c.toNat % 2 ^ sirc12.wCmd.toNat :=
  Nat.and_two_pow_sub_one_eq_mod c.toNat 7

theorem frameSyms_sirc12_and (d c : Byte) : frameSyms sirc12 d c = frameSyms sirc12 (d &&& 0x1F#8) (c &&& 0x7F#8) :=
  frameSyms_congr (by rw [toNat_and_0x1F, Nat.mod_mod]) (by rw [toNat_and_0x7F, Nat.mod_mod])

end Sys2Proof.Machine
end

section
/-!
SUPPORT. The FrameEncoder family (spec/42_frame.md): `CMDBITS`, `DEVBITS` and `FRAME` realised as a whole, and how `SYM` moves in the
ticks of a frame.
-/

namespace Sys2Proof.Machine

/-! ## Symbols realised as a whole -/

/-- `s` after symbols, the last of them in slot `slot`, that have put `w` on the pin (log 7). -/
def State.afterSlot (slot : Nat) (w : Waveform) (s : State) : State :=
  { s with pin := .low, tcnt := 0, pcnt := 0#7, sym := BitVec.ofNat 4 slot, pinLog := pushWave w s.pinLog }

/-- One data bit or more, from slot `slot + 1` on. -/
theorem State.emitBits_eq_afterSlot {bs : List Bool} (hbs : bs ≠ []) (slot : Nat) (s : State) :
    State.emitBits (slot + 1) bs s = s.afterSlot (slot + bs.length) (waveBits s.cfg.profile bs) := by
  cases bs with
  | nil => exact absurd rfl hbs
  | cons b bs => rw [State.emitBits_eq, Nat.add_right_comm]; rfl

/-- Data bits after other symbols; no bits leave the state as it is, so a field of no bits is no exception. -/
theorem State.emitBits_afterSlot (slot : Nat) (bs : List Bool) (w : Waveform) (s : State) :
    State.emitBits (slot + 1) bs (s.afterSlot slot w)
      = s.afterSlot (slot + bs.length) (w ++ waveBits s.cfg.profile bs) := by
  cases bs with
  | nil => simp [State.emitBits, waveBits]
  | cons b bs =>
    rw [State.emitBits_eq_afterSlot (List.cons_ne_nil b bs)]
    simp [State.afterSlot, pushWave_append]

/-- `START` in slot 0 (42_frame.md R140, R142); its burst is not empty (00_scope.md R11). -/
theorem State.emitStart_eq_afterSlot (s : State) :
    State.emitStart { s with sym := 0#4 } = s.afterSlot 0 (waveStart s.cfg.profile) := by
  have hn : s.cfg.profile.nStart ≠ 0#7 := pulses_ne_zero s.cfg.valid 0#4 0#8 0#8
  rw [State.emitStart_eq, State.emitSymbol_eq, if_neg hn]
  rfl

theorem State.emitCmdBits_afterSlot (c : Byte) (w : Waveform) (s : State) :
    (s.afterSlot 0 w).emitCmdBits c = s.afterSlot s.cfg.profile.wCmd.toNat (w ++ waveCmdBits s.cfg.profile c) := by
  have h := s.emitBits_afterSlot 0 (cmdFieldBits s.cfg.profile c) w
  rwa [length_cmdFieldBits, Nat.zero_add s.cfg.profile.wCmd.toNat] at h

theorem State.emitDevBits_afterSlot (d : Byte) (w : Waveform) (s : State) :
    (s.afterSlot s.cfg.profile.wCmd.toNat w).emitDevBits d
      = s.afterSlot s.cfg.profile.lastSym (w ++ waveDevBits s.cfg.profile d) := by
  have h := s.emitBits_afterSlot s.cfg.profile.wCmd.toNat (devFieldBits s.cfg.profile d) w
  rwa [length_devFieldBits, Nat.add_comm _ 1] at h

/-- `FRAME d, c` (42_frame.md R146). -/
theorem State.emitFrame_eq (d c : Byte) (s : State) :
    s.emitFrame d c = s.afterSlot s.cfg.profile.lastSym (waveFrame s.cfg.profile d c) := by
  rw [State.emitFrame, State.emitStart_eq_afterSlot, State.emitCmdBits_afterSlot, State.emitDevBits_afterSlot, waveFrame]

/-- `CMDBITS c` for a field of at least one bit (42_frame.md R143). -/
theorem State.emitCmdBits_eq {s : State} (h : s.cfg.profile.wCmd.toNat ≠ 0) (c : Byte) :
    s.emitCmdBits c = s.afterSlot s.cfg.profile.wCmd.toNat (waveCmdBits s.cfg.profile c) := by
  have hne : cmdFieldBits s.cfg.profile c ≠ [] := List.ne_nil_of_length_pos (by simpa using Nat.pos_of_ne_zero h)
  have hbits := s.emitBits_eq_afterSlot hne 0
  rwa [length_cmdFieldBits, Nat.zero_add s.cfg.profile.wCmd.toNat] at hbits

/-- `DEVBITS d` for a field of at least one bit (42_frame.md R144). -/
theorem State.emitDevBits_eq {s : State} (h : s.cfg.profile.wDev.toNat ≠ 0) (d : Byte) :
    s.emitDevBits d = s.afterSlot s.cfg.profile.lastSym (waveDevBits s.cfg.profile d) := by
  have hne : devFieldBits s.cfg.profile d ≠ [] := List.ne_nil_of_length_pos (by simpa using Nat.pos_of_ne_zero h)
  have hbits := s.emitBits_eq_afterSlot hne s.cfg.profile.wCmd.toNat
  rwa [length_devFieldBits, Nat.add_comm _ 1] at hbits

theorem ofNat_lastSym (p : Profile) : BitVec.ofNat 4 p.lastSym = p.wCmd + p.wDev := by
  simp [Profile.lastSym, BitVec.ofNat_add]

/-- Settles O24: a field of no bits runs nothing, and the others end in their last slot. -/
theorem fieldBitsAreSentLeastSignificantFirst : Obligations.FieldBitsAreSentLeastSignificantFirst := by
  intro v s
  have hbits : dataBit v = fun i => v.getLsbD i := funext (dataBit_eq_getLsbD v)
  have hcmd : exec (.cmdBits v) s = .next (s.emitCmdBits v) := rfl
  have hdev : exec (.devBits v) s = .next (s.emitDevBits v) := rfl
  refine ⟨fun h => ?_, fun h => ?_, fun h => ?_, fun h => ?_, fun hp => ?_, fun hp => ?_⟩
  · rw [hcmd, State.emitCmdBits_eq h, State.afterSlot, waveCmdBits, cmdFieldBits, hbits, BitVec.ofNat_toNat,
      BitVec.setWidth_eq]
  · rw [hdev, State.emitDevBits_eq h, State.afterSlot, waveDevBits, devFieldBits, hbits, ofNat_lastSym]
  · rw [hcmd, State.emitCmdBits, cmdFieldBits, h]
    rfl
  · rw [hdev, State.emitDevBits, devFieldBits, h]
    rfl
  · rw [hcmd, State.emitCmdBits_eq (by rw [hp]; decide), hp, waveCmdBits, cmdFieldBits, hbits]
    rfl
  · rw [hdev, State.emitDevBits_eq (by rw [hp]; decide), hp, waveDevBits, devFieldBits, hbits]
    rfl

/-- Settles O25: the frame's waveform is that of its symbols, and its last slot is `W_CMD + W_DEV`. -/
theorem frameSendsItsSymbolsInOrder : Obligations.FrameSendsItsSymbolsInOrder := by
  intro d c s
  rw [exec, execFrame, State.emitFrame_eq, State.afterSlot, ofNat_lastSym, waveFrame_eq_waveSyms]

/-- `FRAME` depends on its operands by the list of symbols alone. -/
theorem exec_frame_congr {d c d' c' : Byte} {s : State}
    (h : frameSyms s.cfg.profile d c = frameSyms s.cfg.profile d' c') : exec (.frame d c) s = exec (.frame d' c') s := by
  rw [frameSendsItsSymbolsInOrder, frameSendsItsSymbolsInOrder, h]

/-- Settles O47: the lists of symbols are equal, and the waveform and the operation are functions of the list. -/
theorem frameTruncatesItsOperands : Obligations.FrameTruncatesItsOperands := by
  intro p d c d' c' hd hc
  have hsyms := frameSyms_congr hd hc
  have hand := frameSyms_sirc12_and d c
  refine ⟨hsyms, ?_, fun s hp => ?_, hand, ?_, fun s hp => ?_⟩
  · rw [waveFrame_eq_waveSyms, hsyms, ← waveFrame_eq_waveSyms]
  · exact exec_frame_congr (hp ▸ hsyms)
  · rw [waveFrame_eq_waveSyms, hand, ← waveFrame_eq_waveSyms]
  · exact exec_frame_congr (hp ▸ hand)

/-! ## `SYM` in the ticks of a frame (10_state.md R25, 42_frame.md R141) -/

/-- The end of a symbol that is not the last is the one transition that writes `SYM`. -/
theorem PhaseMove.sym {s t : State} (h : PhaseMove s t) :
    t.sym = s.sym ∨ (s.phase = .space ∧ s.tcnt ≤ 1 ∧ s.sym.toNat < s.cfg.profile.lastSym
      ∧ t.sym.toNat = s.sym.toNat + 1) := by
  cases h with
  | symbolEnds hp ht hc => exact .inr ⟨hp, ht, hc, s.cfg.toNat_sym_succ hc⟩
  | idle => exact .inl rfl
  | count => exact .inl rfl
  | highEnds => exact .inl rfl
  | cycleEnds => exact .inl rfl
  | burstEnds => exact .inl rfl
  | frameEnds => exact .inl rfl
  | frameEndsWithoutGap => exact .inl rfl
  | gapEnds => exact .inl rfl

/-- A refused request leaves `SYM`, an accepted one sets it to 0. -/
theorem State.transfer_sym (d c : Byte) (s : State) : (s.transfer d c).sym = s.sym ∨ (s.transfer d c).sym = 0#4 := by
  by_cases h : s.cfg.rangePolicy = .reject ∧ outOfRange s.cfg.profile d c = true
  · exact .inl (by rw [State.transfer_refused h.1 h.2])
  · exact .inr (by rw [State.transfer_accepted h, State.accept_eq])

/-- Settles O38, by the three kinds of tick. -/
theorem symbolsFollowOneAnotherInOrder : Obligations.SymbolsFollowOneAnotherInOrder := by
  intro s t hn h
  rcases step_cases h with ⟨-, hr, rfl⟩ | ⟨-, hr, hi, hv, rfl⟩ | ⟨-, -, -, rfl⟩ | ⟨-, hf, -⟩
  · exact .inr (.inr ⟨rfl, .inr hr⟩)
  · have htr : s.transfers = true := by simp [State.transfers, State.ready, State.readyFlag, hr, hi, hv]
    rcases (s.consume.elapse 1).transfer_sym s.portsNow.reqDevice s.portsNow.reqCommand with hsym | hsym
    · exact .inl (by simpa using hsym)
    · exact .inr (.inr ⟨hsym, .inl htr⟩)
  · rcases (s.consume.elapse 1).phaseTick_move.sym with hsym | hend
    · exact .inl (by simpa using hsym)
    · exact .inr (.inl (by simpa [Profile.lastSym] using hend))
  · exact absurd hn (by simp [hf])

end Sys2Proof.Machine
end

section
/-!
SUPPORT. The waveform of a frame in normal form (spec/00_scope.md R17): its counts (spec/42_frame.md R152) and what the reference
decoder reads from it (R155).
-/

namespace Sys2Proof.Machine

/-! ## Symbols in normal form -/

/-- A waveform in front of which a low segment stands unmerged. -/
def BeginsHigh (w : Waveform) : Prop := ∀ g ∈ w.head?, g.level = .high

/-- A segment that is not empty and differs in level from the next stays as it is. -/
theorem joinFront_eq_cons {g : Segment} {w : Waveform} (hg : g.ticks ≠ 0) (hw : ∀ h ∈ w.head?, h.level ≠ g.level) :
    joinFront g w = g :: w := by
  cases w with
  | nil => simp [joinFront, hg]
  | cons h r => simp [joinFront, hg, hw h rfl]

/-- The norm of a symbol's waveform: the low part of the last cycle and the space are one segment. -/
def normSym (p : Profile) (y : Symbol) : Waveform :=
  rep (y.burst.toNat - 1) (wavePulse p) ++ [⟨.high, p.tHigh.toNat⟩, ⟨.low, p.tLow.toNat + y.space.toNat⟩]

theorem beginsHigh_rep_wavePulse_append {p : Profile} (n : Nat) {v : Waveform} (hv : BeginsHigh v) :
    BeginsHigh (rep n (wavePulse p) ++ v) := by
  cases n with
  | zero => exact hv
  | succ n => simp [BeginsHigh, rep, wavePulse]

theorem beginsHigh_normSym_append (p : Profile) (y : Symbol) (v : Waveform) : BeginsHigh (normSym p y ++ v) := by
  rw [normSym, List.append_assoc]
  exact beginsHigh_rep_wavePulse_append _ (by simp [BeginsHigh])

/-- Two segments, high and low, before a waveform that begins high are in normal form with it. -/
theorem joinFront_high_low {m n : Nat} (hm : m ≠ 0) (hn : n ≠ 0) {w : Waveform} (hw : BeginsHigh w) :
    joinFront ⟨.high, m⟩ (joinFront ⟨.low, n⟩ w) = ⟨.high, m⟩ :: ⟨.low, n⟩ :: w := by
  rw [joinFront_eq_cons (g := ⟨.low, n⟩) hn fun h hh => by simp [hw h hh], joinFront_eq_cons hm (by simp)]

/-- Carrier cycles before a waveform whose norm begins high are in normal form already. -/
theorem normWave_rep_wavePulse_append {p : Profile} (hv : p.valid = true) (n : Nat) {v : Waveform}
    (hb : BeginsHigh (normWave v)) : normWave (rep n (wavePulse p) ++ v) = rep n (wavePulse p) ++ normWave v := by
  obtain ⟨-, -, -, hhigh, hlow, -, -, -⟩ := p.valid_iff.mp hv
  induction n with
  | zero => rfl
  | succ n ih =>
    show joinFront _ (joinFront _ (normWave (rep n (wavePulse p) ++ v))) = _
    rw [ih, joinFront_high_low hhigh.ne' hlow.ne' (beginsHigh_rep_wavePulse_append n hb)]
    rfl

/-- A symbol before a waveform whose norm begins high: only its last cycle meets its space. -/
theorem normWave_waveSym_append {p : Profile} (hv : p.valid = true) {y : Symbol} (hy : y.burst ≠ 0#7) {v : Waveform}
    (hb : BeginsHigh (normWave v)) :
    normWave (waveSym p y.burst y.space ++ v) = normSym p y ++ normWave v := by
  obtain ⟨-, -, -, hhigh, hlow, -, -, -⟩ := p.valid_iff.mp hv
  obtain ⟨k, hk⟩ := Nat.exists_eq_add_one_of_ne_zero (BitVec.toNat_ne_iff_ne.mpr hy)
  have hlast : normWave (wavePulse p ++ ⟨.low, y.space.toNat⟩ :: v)
      = ⟨.high, p.tHigh.toNat⟩ :: ⟨.low, p.tLow.toNat + y.space.toNat⟩ :: normWave v := by
    have hmerge := pushLevel_pushLevel .low y.space.toNat p.tLow.toNat (normWave v)
    rw [Nat.add_comm] at hmerge
    show joinFront _ (pushLevel _ _ (pushLevel _ _ (normWave v))) = _
    rw [hmerge]
    exact joinFront_high_low hhigh.ne' (by omega) hb
  rw [waveSym, waveBurst, hk, rep_succ_end, normSym, hk, Nat.add_sub_cancel]
  simp only [List.append_assoc, List.singleton_append]
  rw [normWave_rep_wavePulse_append hv k (by simp [hlast, BeginsHigh]), hlast]
  rfl

/-- The norm of a list of symbols is the list of their norms. -/
theorem normWave_waveSyms {p : Profile} (hv : p.valid = true) {ys : List Symbol} (hys : ∀ y ∈ ys, y.burst ≠ 0#7) :
    normWave (waveSyms p ys) = ys.flatMap (normSym p) := by
  induction ys with
  | nil => rfl
  | cons y ys ih =>
    rw [List.forall_mem_cons] at hys
    have ih' := ih hys.2
    have hb : BeginsHigh (normWave (waveSyms p ys)) := by
      rw [ih']
      cases ys with
      | nil => simp [BeginsHigh]
      | cons z zs => exact beginsHigh_normSym_append p z _
    rw [waveSyms, normWave_waveSym_append hv hys.1 hb, ih', List.flatMap_cons]

theorem normWave_waveFrame {p : Profile} (hv : p.valid = true) (d c : Byte) :
    normWave (waveFrame p d c) = (frameSyms p d c).flatMap (normSym p) := by
  rw [waveFrame_eq_waveSyms, normWave_waveSyms hv fun y hy => (symbol_nonempty hv hy).1]

/-! ## The reference decoder (42_frame.md R155) -/

/-- Carrier cycles prolong the burst in progress. -/
theorem burstCounts_rep_wavePulse_append (p : Profile) (n k : Nat) (v : Waveform) :
    burstCounts p.tLow.toNat n (rep k (wavePulse p) ++ v) = burstCounts p.tLow.toNat (n + k) v := by
  induction k generalizing n with
  | zero => rfl
  | succ k ih =>
    have hcycle : burstCounts p.tLow.toNat n (wavePulse p ++ (rep k (wavePulse p) ++ v))
        = burstCounts p.tLow.toNat (n + 1) (rep k (wavePulse p) ++ v) := by simp [wavePulse, burstCounts]
    rw [rep, List.append_assoc, hcycle, ih, Nat.add_right_comm, Nat.add_assoc]

/-- The decoder counts the cycles of a symbol: the space ends the burst. -/
theorem burstCounts_normSym_append (p : Profile) {y : Symbol} (hb : y.burst ≠ 0#7) (hs : y.space ≠ 0#10) (v : Waveform) :
    burstCounts p.tLow.toNat 0 (normSym p y ++ v) = y.burst.toNat :: burstCounts p.tLow.toNat 0 v := by
  obtain ⟨k, hk⟩ := Nat.exists_eq_add_one_of_ne_zero (BitVec.toNat_ne_iff_ne.mpr hb)
  have hspace : y.space.toNat ≠ 0 := BitVec.toNat_ne_iff_ne.mpr hs
  rw [normSym, List.append_assoc, burstCounts_rep_wavePulse_append, hk]
  simp [burstCounts, hspace]

theorem burstCounts_flatMap_normSym (p : Profile) {ys : List Symbol} (hys : ∀ y ∈ ys, y.burst ≠ 0#7 ∧ y.space ≠ 0#10) :
    burstCounts p.tLow.toNat 0 (ys.flatMap (normSym p)) = ys.map (fun y => y.burst.toNat) := by
  induction ys with
  | nil => rfl
  | cons y ys ih =>
    rw [List.forall_mem_cons] at hys
    rw [List.flatMap_cons, burstCounts_normSym_append p hys.1.1 hys.1.2, ih hys.2, List.map_cons]

/-- The burst lengths of data bits give the bits back, since `N_ONE` is not `N_ZERO`. -/
theorem burstBits_map_bitBurst {p : Profile} (hv : p.valid = true) (bs : List Bool) :
    burstBits p (bs.map (fun b => (bitBurst p b).toNat)) = some bs := by
  have hne : p.nZero.toNat ≠ p.nOne.toNat := (p.valid_iff.mp hv).1.ne
  induction bs with
  | nil => rfl
  | cons b bs ih =>
    rw [List.map_cons, burstBits, ih]
    cases b <;> simp [bitBurst, hne]

/-- When the decoder accepts, and what it answers. -/
theorem receive_eq_some {p : Profile} {w : Waveform} {ns : List Nat} {bs : List Bool} (hw : BeginsHigh w)
    (hcounts : burstCounts p.tLow.toNat 0 w = p.nStart.toNat :: ns) (hlen : ns.length = p.lastSym)
    (hbits : burstBits p ns = some bs) :
    receive p w = some (bitsValue (bs.drop p.wCmd.toNat), bitsValue (bs.take p.wCmd.toNat)) := by
  cases w with
  | nil => cases hcounts
  | cons g w =>
    have hg : g.level = .high := hw g rfl
    simp [receive, hg, hcounts, hlen, hbits]

/-- The decoder recovers the bits within the fields, in every valid profile. -/
theorem receive_normWave_waveFrame {p : Profile} (hv : p.valid = true) (d c : Byte) :
    receive p (normWave (waveFrame p d c)) = some (d.toNat % 2 ^ p.wDev.toNat, c.toNat % 2 ^ p.wCmd.toNat) := by
  have hcounts : burstCounts p.tLow.toNat 0 (normWave (waveFrame p d c)) = p.nStart.toNat ::
      (cmdFieldBits p c ++ devFieldBits p d).map (fun b => (bitBurst p b).toNat) := by
    rw [normWave_waveFrame hv, burstCounts_flatMap_normSym p fun _ => symbol_nonempty hv, frameSyms_eq, List.map_cons,
      List.map_map]
    rfl
  have hw : BeginsHigh (normWave (waveFrame p d c)) := by
    rw [normWave_waveFrame hv, frameSyms_eq]
    exact beginsHigh_normSym_append p _ _
  rw [receive_eq_some hw hcounts (by simp [Profile.lastSym]) (burstBits_map_bitBurst hv _),
    List.drop_left' (length_cmdFieldBits p c), List.take_left' (length_cmdFieldBits p c),
    devFieldBits, cmdFieldBits, bitsValue_map_dataBit, bitsValue_map_dataBit]

/-- Settles O53, by the round trip in every valid profile. -/
theorem receiverRecoversThePair : Obligations.ReceiverRecoversThePair := by
  intro d c
  rw [receive_normWave_waveFrame rfl, toNat_and_0x1F, toNat_and_0x7F]

/-! ## Counts on the waveform of a frame (42_frame.md R152) -/

/-- A count on waveforms that is a sum over their segments. -/
structure AddsUp (f : Waveform → Nat) : Prop where
  nil : f [] = 0
  append : ∀ v w, f (v ++ w) = f v + f w

theorem addsUp_dur : AddsUp dur := ⟨rfl, dur_append⟩

theorem addsUp_length : AddsUp List.length := ⟨rfl, fun _ _ => List.length_append⟩

theorem addsUp_ticksAt (l : Level) : AddsUp (ticksAt l) := by
  refine ⟨rfl, fun v w => ?_⟩
  induction v with
  | nil => simp [ticksAt]
  | cons g v ih => simp [ticksAt, ih, Nat.add_assoc]

theorem addsUp_highSegments : AddsUp highSegments := by
  refine ⟨rfl, fun v w => ?_⟩
  induction v with
  | nil => simp [highSegments]
  | cons g v ih => simp [highSegments, ih, Nat.add_assoc]

section
variable {f : Waveform → Nat} (hf : AddsUp f)
include hf

theorem AddsUp.rep (n : Nat) (w : Waveform) : f (rep n w) = n * f w := by
  induction n with
  | zero => rw [Nat.zero_mul]; exact hf.nil
  | succ n ih => rw [Machine.rep, hf.append, ih, Nat.succ_mul, Nat.add_comm]

theorem AddsUp.waveSym (p : Profile) (n : BitVec 7) (s : BitVec 10) :
    f (waveSym p n s) = n.toNat * f (wavePulse p) + f [⟨.low, s.toNat⟩] := by
  rw [Machine.waveSym, hf.append, waveBurst, hf.rep]

/-- Every data bit counts as a 0, and a bit that is 1 counts `N_ONE - N_ZERO` cycles more. -/
theorem AddsUp.waveBits {p : Profile} (hv : p.valid = true) (bs : List Bool) :
    f (waveBits p bs) = bs.length * (p.nZero.toNat * f (wavePulse p) + f (waveSpace p))
      + onesIn bs * ((p.nOne.toNat - p.nZero.toNat) * f (wavePulse p)) := by
  obtain ⟨k, hone⟩ := Nat.exists_eq_add_of_le (p.valid_iff.mp hv).1.le
  rw [hone, Nat.add_sub_cancel_left]
  induction bs with
  | nil => simp [Machine.waveBits, onesIn, hf.nil]
  | cons b bs ih =>
    rw [Machine.waveBits, hf.append, ih, waveBit, hf.waveSym, onesIn, List.length_cons]
    cases b with
    | false => simp [bitBurst, waveSpace]; ring
    | true => simp [bitBurst, waveSpace, hone]; ring

/-- A count on a frame, by its number of ones. -/
theorem AddsUp.waveFrame {p : Profile} (hv : p.valid = true) (d c : Byte) :
    f (waveFrame p d c) = p.nStart.toNat * f (wavePulse p) + f (waveSpace p)
      + (p.lastSym * (p.nZero.toNat * f (wavePulse p) + f (waveSpace p))
        + ones p d c * ((p.nOne.toNat - p.nZero.toNat) * f (wavePulse p))) := by
  rw [waveFrame_eq_waveBits, hf.append, waveStart, hf.waveSym, hf.waveBits hv]
  simp [ones, Profile.lastSym, waveSpace]

/-- A count on a frame of `SIRC12`, with `x` for a carrier cycle and `y` for a space. -/
theorem AddsUp.waveFrame_sirc12 {x y : Nat} (hx : f (wavePulse sirc12) = x) (hy : f (waveSpace sirc12) = y) (d c : Byte) :
    f (Machine.waveFrame sirc12 d c) = (384 + 24 * ones sirc12 d c) * x + 13 * y := by
  rw [hf.waveFrame rfl, hx, hy]
  simp [sirc12, Profile.lastSym]
  ring

end

theorem onesIn_le_length (bs : List Bool) : onesIn bs ≤ bs.length := by
  induction bs with
  | nil => exact Nat.le_refl 0
  | cons b bs ih => rw [onesIn, List.length_cons]; split <;> omega

/-- A symbol in normal form has a high and a low segment for each carrier cycle. -/
theorem length_normSym (p : Profile) {y : Symbol} (hy : y.burst ≠ 0#7) :
    (normSym p y).length = 2 * highSegments (waveSym p y.burst y.space) := by
  have hburst : y.burst.toNat ≠ 0 := BitVec.toNat_ne_iff_ne.mpr hy
  rw [normSym, List.length_append, addsUp_length.rep, addsUp_highSegments.waveSym]
  simp [wavePulse, highSegments]
  omega

theorem length_flatMap_normSym (p : Profile) {ys : List Symbol} (hys : ∀ y ∈ ys, y.burst ≠ 0#7) :
    (ys.flatMap (normSym p)).length = 2 * highSegments (waveSyms p ys) := by
  induction ys with
  | nil => rfl
  | cons y ys ih =>
    rw [List.forall_mem_cons] at hys
    rw [List.flatMap_cons, List.length_append, length_normSym p hys.1, ih hys.2, waveSyms, addsUp_highSegments.append,
      Nat.mul_add]

/-- Settles O49: each count is a sum over cycles and spaces, and in normal form each space belongs to the cycle before it. -/
theorem frameDurationAndCounts : Obligations.FrameDurationAndCounts := by
  intro d c
  have hdur : dur (waveFrame sirc12 d c) = 17400 + 600 * ones sirc12 d c := by
    rw [addsUp_dur.waveFrame_sirc12 (x := 25) (y := 600) rfl rfl]; omega
  have hcycles : highSegments (waveFrame sirc12 d c) = 384 + 24 * ones sirc12 d c := by
    rw [addsUp_highSegments.waveFrame_sirc12 (x := 1) (y := 0) rfl rfl]; omega
  refine ⟨hdur, ?_, ?_, hcycles, ?_, ?_, ?_⟩
  · rw [hdur, tFrame, totalCycles]
    simp [sirc12, Profile.tCycle, Profile.nSym, Profile.lastSym]
    omega
  · rw [(addsUp_ticksAt .high).waveFrame_sirc12 (x := 12) (y := 0) rfl rfl]; omega
  · rw [addsUp_length.waveFrame_sirc12 (x := 2) (y := 1) rfl rfl]; omega
  · rw [normWave_waveFrame rfl, length_flatMap_normSym _ fun y hy => (symbol_nonempty rfl hy).1, ← waveFrame_eq_waveSyms,
      hcycles]
  · exact (onesIn_le_length _).trans_eq (by simp [sirc12])

end Sys2Proof.Machine
end

section
/-!
SUPPORT. The TransmitDriver family (spec/43_transmit.md), one tick at a time: reset, requests, the tick of the gap, and the step as
the rule R180 gives it.
-/

namespace Sys2Proof.Machine

/-! ## Fetch, decode, execute -/

/-- Settles O27: the step's own case split on what is decoded. -/
theorem stepRunsTheDecodedInstruction : Obligations.StepRunsTheDecodedInstruction := by
  intro s i hd
  rw [step, hd]

/-- Port values at the head of the script are those of the tick. -/
theorem State.ports_tick {s : State} {p : Ports} {rest : List HostAction} (h : s.script = .ports p :: rest) :
    s.TickNext ∧ s.portsNow = p := by
  simp [State.TickNext, State.nextIsTick, State.portsNow, h]

/-! ## Reset (43_transmit.md R184) -/

/-- Settles O5: `exec RESET` is one tick and then `State.toReset`. -/
theorem resetOperationCompletes : Obligations.ResetOperationCompletes := fun _ => rfl

/-- Settles O4: the first arm of the step. -/
theorem resetTickEndsInTheResetState : Obligations.ResetTickEndsInTheResetState := by
  intro s p rest hs hr
  obtain ⟨hn, hp⟩ := State.ports_tick hs
  rw [step_of_reset hn (hp ▸ hr), State.consume_ports hs]
  rfl

/-! ## Requests (43_transmit.md R171 to R175) -/

theorem State.present_of_idle {s : State} (hi : s.phase = .idle) (d c : Byte) : s.present d c = s.transfer d c := if_pos hi

theorem State.present_of_busy {s : State} (hb : s.phase ≠ .idle) (d c : Byte) : s.present d c = s.phaseTick := if_neg hb

/-- In `SIRC12` a legal pair is accepted under either policy, and any pair under `TRUNCATE` (60_exceptions.md R201). -/
theorem not_refused_sirc12 {k : Config} (hprof : k.profile = sirc12) {d c : Byte}
    (h : k.rangePolicy = .truncate ∨ (d.toNat ≤ 31 ∧ c.toNat ≤ 127)) :
    ¬(k.rangePolicy = .reject ∧ outOfRange k.profile d c = true) :=
  (not_refused_iff k d c).mpr (by rwa [hprof])

/-- An accepted request in `SIRC12`: the start burst of 96 cycles begins, with its first 12 ticks (43_transmit.md R172, R174). -/
theorem State.present_accepted_sirc12 {s : State} (hprof : s.cfg.profile = sirc12) (hi : s.phase = .idle) {d c : Byte}
    (h : s.cfg.rangePolicy = .truncate ∨ (d.toNat ≤ 31 ∧ c.toNat ≤ 127)) :
    s.present d c = { s with
      dev := d, cmd := c, err := false, sym := 0#4, phase := .high, pin := .high, pcnt := 96#7, tcnt := 12 } := by
  rw [State.present_of_idle hi, State.transfer_accepted (not_refused_sirc12 hprof h), State.accept_eq, hprof]
  rfl

/-- Settles O6: a legal pair is accepted. -/
theorem legalRequestIsAccepted : Obligations.LegalRequestIsAccepted := by
  intro s d c hprof hi hd hc
  rw [exec, execTx, State.present_accepted_sirc12 (s := s.elapse 1) hprof hi (.inr ⟨hd, hc⟩)]
  rfl

/-- Settles O8: under `TRUNCATE` no pair is refused, and the operands are latched as they are. -/
theorem wideRequestIsAcceptedUnderTruncate : Obligations.WideRequestIsAcceptedUnderTruncate := by
  intro s d c hprof hpolicy hi _
  rw [exec, execTxWide, State.present_accepted_sirc12 (s := s.elapse 1) hprof hi (.inl hpolicy)]
  rfl

/-- Settles O7: the range check fails, and `raise` writes `ERR` alone. -/
theorem wideRequestIsRefusedUnderReject : Obligations.WideRequestIsRefusedUnderReject := by
  intro s d c hpolicy hi hwide
  have hrange : outOfRange (s.elapse 1).cfg.profile d c = true := (outOfRange_iff _ d c).mpr hwide.symm
  rw [exec, execTxWide, State.present_of_idle (s := s.elapse 1) hi,
    State.transfer_refused (s := s.elapse 1) hpolicy hrange]
  rfl

/-- Settles O9: what is presented in a busy phase is not looked at, and the operation of a phase is its tick. -/
theorem requestOutsideIdleHasNoEffect : Obligations.RequestOutsideIdleHasNoEffect := by
  intro s d c
  have hbusy (hb : s.phase ≠ .idle) {i : Instr} (hi : exec i s = .next (s.elapse 1).phaseTick) :
      exec (.tx d c) s = exec i s ∧ exec (.txWide d c) s = exec i s := by
    rw [hi, exec, exec, execTx, execTxWide, State.present_of_busy (s := s.elapse 1) hb]
    exact ⟨rfl, rfl⟩
  have hphase {i : Instr} (hi : decodePhase s.phase.code = .ok i) : exec i s = .next (s.elapse 1).phaseTick := by
    obtain ⟨j, hj, hexec⟩ := exec_phase s s
    exact Except.ok.inj (hi.symm.trans hj) ▸ hexec rfl
  refine ⟨fun h => ?_, fun h => ?_, fun h => ?_, fun h => ?_⟩ <;>
    exact hbusy (by simp [h]) (hphase (by rw [h]; rfl))

/-- Settles O11: the request word is fetched, and decodes to `TX` or `TX.WIDE` as the pair is legal or not. -/
theorem transferredRequestIsExecuted : Obligations.TransferredRequestIsExecuted := by
  intro s p rest hs hr hv hi
  obtain ⟨hn, hp⟩ := State.ports_tick hs
  have hfetch : s.fetch = .req16 (encodeReq p.reqDevice p.reqCommand) := by
    simp [fetch_of_tick hn, hp, State.portCode, hr, hv, hi]
  obtain ⟨hlegal, -, hwide⟩ := legalPatternIsTheRangeCheck p.reqDevice p.reqCommand
  have hstep {i : Instr} (hd : decode s.fetch = .ok i) : step s = exec i { s with script := rest } := by
    rw [stepRunsTheDecodedInstruction s i hd, State.consume_ports hs]
  exact ⟨fun h => hstep (hfetch ▸ hlegal.mpr h), fun h => hstep (hfetch ▸ hwide.mpr (by omega))⟩

/-! ## The phases `IDLE` and `GAP` (43_transmit.md R176, R177) -/

/-- Settles O12: `exec PH.IDLE` lets one tick pass. -/
theorem idleTickChangesNothing : Obligations.IdleTickChangesNothing := fun _ => rfl

theorem State.gapTick_of_counting (s : State) (ht : 1 < s.tcnt) : s.gapTick = s.countDown := if_pos ht

theorem State.gapTick_of_last (s : State) (ht : s.tcnt ≤ 1) : s.gapTick = s.enterIdle := if_neg (Nat.not_lt.mpr ht)

/-- Settles O16: the tick counts down or ends the gap. -/
theorem gapTickCountsDownThenEntersIdle : Obligations.GapTickCountsDownThenEntersIdle := by
  intro s
  have hexec : exec .phGap s = .next (s.elapse 1).gapTick := rfl
  refine ⟨fun ht => ?_, fun ht => ?_⟩
  · rw [hexec, (s.elapse 1).gapTick_of_counting ht]
    rfl
  · rw [hexec, (s.elapse 1).gapTick_of_last ht]
    rfl

/-- Settles O26, by the law of `State.emitGap`; `wave(GAP)` is what a low pin sends. -/
theorem gapKeepsThePinForItsTicksThenIdle : Obligations.GapKeepsThePinForItsTicksThenIdle := by
  intro s
  have hexec : exec .gap s = .next s.emitGap := rfl
  have hwave : pushWave (waveGap s.cfg) s.pinLog = pushLevel .low s.cfg.gapUs s.pinLog := rfl
  refine ⟨by rw [hexec, s.emitGap_eq], fun hlow => ?_⟩
  rw [hexec, s.emitGap_eq, hwave, hlow]

/-! ## The step of the rule (43_transmit.md R180) -/

/-- `s` with other values of the two fields that are the model's own (log 2, log 5). -/
def State.withHistory (script : List HostAction) (log : Waveform) (s : State) : State :=
  { s with script := script, pinLog := log }

/-- A tick puts the old level on the record and uses up its ports. -/
theorem State.consume_elapse_eq_withHistory (s : State) :
    s.consume.elapse 1 = s.withHistory s.consume.script (pushLevel s.pin 1 s.pinLog) := by
  cases hs : s.script with
  | nil => rw [State.consume_nil hs]; rfl
  | cons a rest =>
    by_cases hi : s.phase = .idle <;> cases a <;> simp [State.consume, State.elapse, State.withHistory, hs, hi]

/-- The rule neither looks at the model's own fields nor writes them. -/
theorem ruleStep_withHistory (script : List HostAction) (log : Waveform) (s : State) (p : Ports) :
    ruleStep (s.withHistory script log) p = (ruleStep s p).withHistory script log := by
  obtain ⟨phase, _⟩ := s
  unfold ruleStep ruleBeginSymbol State.withHistory
  cases phase <;> dsimp only <;> split_ifs <;> rfl

/-- The rule's first arm. -/
theorem ruleStep_of_reset {s : State} {p : Ports} (hr : p.rst = true) : ruleStep s p = s.toReset := if_pos hr

/-- The rule's transferred request. -/
theorem ruleStep_of_transfer {s : State} {p : Ports} (hr : p.rst = false) (hi : s.phase = .idle) (hv : p.reqValid = true) :
    ruleStep s p = s.transfer p.reqDevice p.reqCommand := by
  obtain ⟨_, _, _, _⟩ := p
  obtain ⟨_, _⟩ := s
  cases hr; cases hi; cases hv
  simp only [State.transfer, outOfRange_iff]
  rfl

/-- The rule's tick of the phase in progress. -/
theorem ruleStep_of_phase {s : State} {p : Ports} (hr : p.rst = false) (hp : s.phase ≠ .idle ∨ p.reqValid = false) :
    ruleStep s p = s.phaseTick := by
  obtain ⟨_, valid, _, _⟩ := p
  obtain ⟨phase, _⟩ := s
  cases hr
  cases phase with
  | idle =>
    obtain rfl : valid = false := hp.resolve_left fun hb => hb rfl
    rfl
  | high => rfl
  | low => rfl
  | space => rfl
  | gap => rfl

/-- Settles O28, by the three kinds of tick. -/
theorem tickIsTheStepOfTheRule : Obligations.TickIsTheStepOfTheRule := by
  intro s hn
  suffices step s = .next (ruleStep (s.consume.elapse 1) s.portsNow) by
    rwa [State.consume_elapse_eq_withHistory, ruleStep_withHistory] at this
  cases hr : s.portsNow.rst with
  | true => rw [step_of_reset hn hr, ruleStep_of_reset hr]
  | false =>
    by_cases hp : s.phase ≠ .idle ∨ s.portsNow.reqValid = false
    · rw [step_of_phase hn hr hp, ruleStep_of_phase hr (by simpa using hp)]
    · obtain ⟨hi, hv⟩ : s.phase = .idle ∧ s.portsNow.reqValid = true := by simpa using hp
      rw [step_of_transfer hn hr hi hv, ruleStep_of_transfer hr (by simpa using hi) hv]

/-- Settles O29: a tick is the rule's step, and every operation completes. -/
theorem everyTickHasANextState : Obligations.EveryTickHasANextState := by
  intro s
  refine ⟨fun hn => ⟨_, tickIsTheStepOfTheRule s hn⟩, fun i hd => ?_, fun why hd => ?_⟩
  · rw [stepRunsTheDecodedInstruction s i hd]
    exact exec_next i s.consume
  · rw [step, hd]

/-! ## Into `IDLE` and out of it (43_transmit.md R186, R171) -/

/-- A transfer that leaves `IDLE` was accepted, which clears `ERR`. -/
theorem State.transfer_err {s : State} (hi : s.phase = .idle) (d c : Byte) (hb : (s.transfer d c).phase ≠ .idle) :
    (s.transfer d c).err = false := by
  by_cases h : s.cfg.rangePolicy = .reject ∧ outOfRange s.cfg.profile d c = true
  · exact absurd hi (by rwa [State.transfer_refused h.1 h.2] at hb)
  · rw [State.transfer_accepted h, State.accept_err]

/-- The tick of a phase leads to `IDLE` from the end of the gap, and from the end of the frame if there is no gap. -/
theorem PhaseMove.enters_idle {s t : State} (h : PhaseMove s t) (hb : s.phase ≠ .idle) (ht : t.phase = .idle) :
    s.tcnt ≤ 1 ∧ (s.phase = .gap ∨ (s.phase = .space ∧ s.cfg.gapUs = 0 ∧ s.cfg.profile.lastSym ≤ s.sym.toNat)) := by
  cases h with
  | idle hp => exact absurd hp hb
  | count => exact absurd ht hb
  | highEnds => cases ht
  | cycleEnds => cases ht
  | burstEnds => cases ht
  | symbolEnds => cases ht
  | frameEnds => cases ht
  | frameEndsWithoutGap hp hlast hc hg => exact ⟨hlast, .inr ⟨hp, hg, hc⟩⟩
  | gapEnds hp hlast => exact ⟨hlast, .inl hp⟩

/-- Settles O39, by the kinds of step: a call stays in `IDLE`. -/
theorem idleIsLeftByAcceptanceAndEnteredAfterTheFrame : Obligations.IdleIsLeftByAcceptanceAndEnteredAfterTheFrame := by
  intro s t h hr
  rcases step_cases h with ⟨-, hr', -⟩ | ⟨-, -, hi, hv, rfl⟩ | ⟨-, -, -, rfl⟩ | ⟨hi, hf, hcall⟩
  · simp [hr] at hr'
  · have htr : s.transfers = true := by simp [State.transfers, State.ready, State.readyFlag, hr, hi, hv]
    exact ⟨fun _ hb => ⟨htr, State.transfer_err (by simpa using hi) _ _ hb⟩, fun hb => absurd hi hb⟩
  · refine ⟨fun hi hb => ?_, fun hb ht => ?_⟩
    · exact absurd hb (by simp [State.phaseTick, hi])
    · simpa [Profile.lastSym] using (s.consume.elapse 1).phaseTick_move.enters_idle (by simpa using hb) ht
  · have ht : t.phase = .idle := by
      rcases step_call_cases hf hcall with ⟨-, rfl⟩ | hc
      · simpa using hi
      · exact hc.phase (by simpa using hi)
    exact ⟨fun _ hb => absurd ht hb, fun hb => absurd hi hb⟩

end Sys2Proof.Machine
end

section
/-!
SUPPORT. Where the symbols of a frame stand in its waveform (spec/43_transmit.md R183), and what is left of the frame from a slot on.
-/

namespace Sys2Proof.Machine

/-! ## The level in a tick of a waveform -/

theorem levelAt_append_right (v w : Waveform) (t : Nat) : levelAt (v ++ w) (dur v + t) = levelAt w t := by
  induction v with
  | nil => simp
  | cons g v ih =>
    have hafter : g.ticks + dur v + t - g.ticks = dur v + t := by omega
    rw [List.cons_append, levelAt_cons, dur_cons, if_neg (by omega), hafter, ih]

theorem levelAt_append_left {v : Waveform} {t : Nat} (ht : t < dur v) (w : Waveform) :
    levelAt (v ++ w) t = levelAt v t := by
  induction v generalizing t with
  | nil => cases ht
  | cons g v ih =>
    rw [dur_cons] at ht
    rw [List.cons_append, levelAt_cons, levelAt_cons]
    split
    · rfl
    · exact ih (by omega)

/-- Each copy of a repeated waveform shows it again. -/
theorem levelAt_rep {w : Waveform} {n j x : Nat} (hj : j < n) (hx : x < dur w) :
    levelAt (rep n w) (dur w * j + x) = levelAt w x := by
  induction n generalizing j with
  | zero => cases hj
  | succ n ih =>
    rw [rep]
    cases j with
    | zero => rw [Nat.mul_zero, Nat.zero_add, levelAt_append_left hx]
    | succ j => rw [Nat.mul_succ, Nat.add_comm (dur w * j), Nat.add_assoc, levelAt_append_right, ih (Nat.lt_of_succ_lt_succ hj)]

/-! ## One symbol -/

@[simp] theorem dur_wavePulse (p : Profile) : dur (wavePulse p) = p.tCycle := rfl

theorem dur_waveBurst (p : Profile) (n : BitVec 7) : dur (waveBurst p n) = p.tCycle * n.toNat := by
  rw [waveBurst, dur_rep, dur_wavePulse, Nat.mul_comm]

theorem dur_waveSym (p : Profile) (n : BitVec 7) (w : BitVec 10) : dur (waveSym p n w) = p.tCycle * n.toNat + w.toNat := by
  rw [waveSym, dur_append, dur_waveBurst]
  rfl

/-- A carrier cycle of a symbol is high, then low. -/
theorem levelAt_waveSym_cycle {p : Profile} {n : BitVec 7} (w : BitVec 10) {j x : Nat} (hj : j < n.toNat)
    (hx : x < p.tCycle) :
    levelAt (waveSym p n w) (p.tCycle * j + x) = some (if x < p.tHigh.toNat then .high else .low) := by
  have hburst : p.tCycle * j + x < dur (waveBurst p n) := by
    have hcycles := Nat.mul_le_mul_left p.tCycle (Nat.succ_le_of_lt hj)
    rw [Nat.mul_succ] at hcycles
    rw [dur_waveBurst]
    omega
  rw [waveSym, levelAt_append_left hburst, waveBurst, ← dur_wavePulse, levelAt_rep hj hx, wavePulse, levelAt_cons,
    levelAt_cons]
  by_cases hhigh : x < p.tHigh.toNat
  · simp [hhigh]
  · have hlow : x - p.tHigh.toNat < p.tLow.toNat := by unfold Profile.tCycle at hx; omega
    simp [hhigh, hlow]

/-- The space follows the last cycle. -/
theorem levelAt_waveSym_space (p : Profile) (n : BitVec 7) {w : BitVec 10} {x : Nat} (hx : x < w.toNat) :
    levelAt (waveSym p n w) (p.tCycle * n.toNat + x) = some .low := by
  rw [waveSym, ← dur_waveBurst, levelAt_append_right, levelAt_cons, if_pos hx]

/-! ## The frame from a slot on -/

/-- The waveform of the symbols of the frame from slot `k` on. -/
def waveFrom (p : Profile) (d c : Byte) (k : Nat) : Waveform := waveSyms p ((frameSyms p d c).drop k)

theorem waveFrom_zero (p : Profile) (d c : Byte) : waveFrom p d c 0 = waveFrame p d c := (waveFrame_eq_waveSyms p d c).symm

theorem waveFrom_of_getElem? {p : Profile} {d c : Byte} {k : Nat} {y : Symbol} (hy : (frameSyms p d c)[k]? = some y) :
    waveFrom p d c k = waveSym p y.burst y.space ++ waveFrom p d c (k + 1) := by
  obtain ⟨hk, rfl⟩ := List.getElem?_eq_some_iff.mp hy
  rw [waveFrom, List.drop_eq_getElem_cons hk, waveSyms, waveFrom]

/-- Nothing is left after the last slot. -/
theorem waveFrom_lastSym_succ (p : Profile) (d c : Byte) : waveFrom p d c (p.lastSym + 1) = [] := by
  have hlen := (everyFrameHasThirteenSymbols p d c).1
  rw [waveFrom, List.drop_of_length_le (by rw [hlen, Profile.lastSym]; omega), waveSyms]

theorem waveSyms_append (p : Profile) (ys zs : List Symbol) : waveSyms p (ys ++ zs) = waveSyms p ys ++ waveSyms p zs := by
  induction ys with
  | nil => rfl
  | cons y ys ih => rw [List.cons_append, waveSyms, waveSyms, ih, List.append_assoc]

theorem dur_waveSyms (p : Profile) (ys : List Symbol) : dur (waveSyms p ys) = (ys.map (symbolTicks p)).sum := by
  induction ys with
  | nil => rfl
  | cons y ys ih => rw [waveSyms, dur_append, dur_waveSym, ih, List.map_cons, List.sum_cons, symbolTicks, Nat.mul_comm]

/-- `o_s` is where slot `s` begins (43_transmit.md R183). -/
theorem levelAt_symbolOffset_add (p : Profile) (d c : Byte) (s t : Nat) :
    levelAt (waveFrame p d c) (symbolOffset p d c s + t) = levelAt (waveFrom p d c s) t := by
  have hsplit : waveFrame p d c = waveSyms p ((frameSyms p d c).take s) ++ waveFrom p d c s := by
    rw [waveFrom, ← waveSyms_append, List.take_append_drop, waveFrame_eq_waveSyms]
  rw [hsplit, symbolOffset, ← dur_waveSyms, levelAt_append_right]

/-- In the ticks of a slot the pin follows the waveform of its symbol. -/
theorem levelAt_slot {p : Profile} {d c : Byte} {s : Nat} {y : Symbol} (hy : (frameSyms p d c)[s]? = some y) {t : Nat}
    (ht : t < dur (waveSym p y.burst y.space)) :
    levelAt (waveFrame p d c) (symbolOffset p d c s + t) = levelAt (waveSym p y.burst y.space) t := by
  rw [levelAt_symbolOffset_add, waveFrom_of_getElem? hy, levelAt_append_left ht]

theorem space_of_mem_frameSyms {p : Profile} {d c : Byte} {y : Symbol} (hy : y ∈ frameSyms p d c) : y.space = p.tSpace := by
  rw [frameSyms_eq, List.mem_cons, List.mem_map] at hy
  rcases hy with rfl | ⟨b, -, rfl⟩
  · rfl
  · rfl

/-- Settles O52: the ticks are those of the symbol in the slot, and `SIRC12` has cycles of 12 and 13 ticks and spaces of 600. -/
theorem symbolsStandAtTheirOffsets : Obligations.SymbolsStandAtTheirOffsets := by
  intro d c s y hy
  have hcycle : sirc12.tCycle = 25 := rfl
  have hspace : y.space.toNat = 600 := by rw [space_of_mem_frameSyms (List.mem_of_getElem? hy)]; rfl
  have hdur : dur (waveSym sirc12 y.burst y.space) = 25 * y.burst.toNat + 600 := by rw [dur_waveSym, hcycle, hspace]
  refine ⟨fun j x hj hx => ?_, fun x hx => ?_⟩
  · rw [Nat.add_assoc, levelAt_slot hy (by omega)]
    exact levelAt_waveSym_cycle y.space hj hx
  · rw [Nat.add_assoc, levelAt_slot hy (by omega)]
    exact levelAt_waveSym_space sirc12 y.burst (hx.trans_eq hspace.symm)

end Sys2Proof.Machine
end

section
/-!
SUPPORT. An accepted request in ticks (spec/43_transmit.md R182): the frame slot by slot, the gap, and `IDLE` again.
-/

namespace Sys2Proof.Machine

/-! ## The gap (43_transmit.md R176) -/

theorem State.phaseTick_of_space (s : State) (hp : s.phase = .space) : s.phaseTick = s.spaceTick := by
  simp only [State.phaseTick, hp]

theorem State.phaseTick_of_gap (s : State) (hp : s.phase = .gap) : s.phaseTick = s.gapTick := by
  simp only [State.phaseTick, hp]

/-- Settles O57: the segment runs for `TCNT` ticks, and its last tick ends the gap. -/
theorem gapLastsItsTicks : Obligations.GapLastsItsTicks := by
  intro s n ht hn hp h
  rw [run_segment (by simp [hp]) ht hn h, (s.lastTick n).phaseTick_of_gap hp, (s.lastTick n).gapTick_of_last le_rfl]
  rfl

/-- From the end of the frame to `IDLE` are `GAP_US` ticks, which may be none. -/
theorem run_enterGap {s : State} (h : s.NoResetFor s.cfg.gapUs) :
    run s.cfg.gapUs s.enterGap = .next (s.hold s.cfg.gapUs).enterIdle := by
  by_cases hg : s.cfg.gapUs = 0
  · rw [s.enterGap_of_noGap hg, hg, run_zero]
    simp [State.hold, State.elapse, State.enterIdle]
  · rw [s.enterGap_of_gap hg]
    exact gapLastsItsTicks _ _ rfl (Nat.one_le_iff_ne_zero.mpr hg) rfl h

/-! ## The frame, slot by slot (43_transmit.md R179, R180) -/

/-- `s` after symbols that have put `w` on the pin, in the last tick of `SPACE`, before the phase is left. -/
def State.sent (w : Waveform) (s : State) : State :=
  { s with phase := .space, pin := .low, tcnt := 1, pcnt := 0#7, script := s.script.drop (dur w), pinLog := pushWave w s.pinLog }

/-- A burst that has begun runs to its end, and its space runs to the last tick. -/
theorem run_symbol {s : State} (hs : s.CycleStart) (hn : 1 ≤ s.pcnt.toNat)
    (h : s.NoResetFor (dur (waveSym s.cfg.profile s.pcnt s.cfg.profile.tSpace))) :
    run (dur (waveSym s.cfg.profile s.pcnt s.cfg.profile.tSpace)) s
      = .next (s.sent (waveSym s.cfg.profile s.pcnt s.cfg.profile.tSpace)).spaceTick := by
  have hdur := dur_waveSym s.cfg.profile s.pcnt s.cfg.profile.tSpace
  obtain ⟨-, -, -, -, -, hspace, -⟩ := s.cfg.profile.valid_iff.mp s.cfg.valid
  obtain ⟨hburst, hrest⟩ := (State.noResetFor_add _ _ s).mp (hdur ▸ h)
  have hsent : (s.burstEnd s.pcnt.toNat).lastTick s.cfg.profile.tSpace.toNat
      = s.sent (waveSym s.cfg.profile s.pcnt s.cfg.profile.tSpace) := by
    simp [State.burstEnd, State.lastTick, State.hold, State.sent, State.enterSpace, State.elapse, waveSym, waveBurst,
      pushWave_append, Nat.mul_comm]
  rw [hdur, run_add (run_burst hs rfl hn hburst),
    run_segment (s := s.burstEnd s.pcnt.toNat) (n := s.cfg.profile.tSpace.toNat) (by simp [State.burstEnd]) rfl hspace hrest,
    hsent, State.phaseTick_of_space _ rfl]

/-- The waveform of the symbol in slot `SYM`. -/
def State.slotWave (s : State) : Waveform :=
  waveSym s.cfg.profile (pulses s.cfg.profile s.sym s.cmd s.dev) s.cfg.profile.tSpace

theorem State.beginSymbol_cycleStart (s : State) : s.beginSymbol.CycleStart := by
  rw [State.beginSymbol_eq]
  exact ⟨rfl, rfl, rfl⟩

/-- `begin_symbol()` starts the symbol of slot `SYM`. -/
theorem run_slot {s : State} (h : s.NoResetFor (dur s.slotWave)) :
    run (dur s.slotWave) s.beginSymbol = .next (s.sent s.slotWave).spaceTick := by
  have hwave : waveSym s.beginSymbol.cfg.profile s.beginSymbol.pcnt s.beginSymbol.cfg.profile.tSpace = s.slotWave := by
    rw [State.beginSymbol_eq]
    rfl
  have hsent (w : Waveform) : s.beginSymbol.sent w = s.sent w := by
    rw [State.beginSymbol_eq]
    rfl
  have hpcnt : 1 ≤ s.beginSymbol.pcnt.toNat := by
    rw [State.beginSymbol_eq]
    exact one_le_pulses s.cfg.valid _ _ _
  have hstart : s.beginSymbol.NoResetFor (dur s.slotWave) := by rwa [State.NoResetFor, State.beginSymbol_script]
  have hrun := run_symbol s.beginSymbol_cycleStart hpcnt (by rwa [hwave])
  rwa [hwave, hsent] at hrun

/-- What is left of the frame from slot `SYM` on. -/
def State.frameLeft (s : State) : Waveform := waveFrom s.cfg.profile s.dev s.cmd s.sym.toNat

/-- It is the symbol of the slot and then the slots after it. -/
theorem State.frameLeft_eq {s : State} (hsym : s.sym.toNat ≤ s.cfg.profile.lastSym) :
    s.frameLeft = s.slotWave ++ waveFrom s.cfg.profile s.dev s.cmd (s.sym.toNat + 1) :=
  waveFrom_of_getElem? (pulsesAgreeWithTheFrameAsAList s.cfg.profile s.dev s.cmd s.sym hsym)

/-- `s` when its slot is over and `SYM` is at the next. -/
def State.nextSlot (s : State) : State := { s.sent s.slotWave with sym := s.sym + 1#4 }

/-- The space of a slot that is not the last leads to the next slot. -/
theorem run_slot_of_lt {s : State} (hc : s.sym.toNat < s.cfg.profile.lastSym) (h : s.NoResetFor (dur s.slotWave)) :
    run (dur s.slotWave) s.beginSymbol = .next s.nextSlot.beginSymbol := by
  rw [run_slot h, State.spaceTick_of_symbolEnd (s.sent s.slotWave) le_rfl hc, State.beginSymbol_eq]
  rfl

theorem State.frameLeft_nextSlot {s : State} (hc : s.sym.toNat < s.cfg.profile.lastSym) :
    s.nextSlot.frameLeft = waveFrom s.cfg.profile s.dev s.cmd (s.sym.toNat + 1) :=
  congrArg (waveFrom s.cfg.profile s.dev s.cmd) (s.cfg.toNat_sym_succ hc)

/-- `s` when the frame from slot `SYM` on has been sent, before the gap. -/
def State.frameEnd (s : State) : State := { s.sent s.frameLeft with sym := BitVec.ofNat 4 s.cfg.profile.lastSym }

/-- From the first tick of a slot the rest of the frame is sent, and then the gap begins. -/
theorem run_frameLeft {m : Nat} {s : State} (hm : s.sym.toNat + m = s.cfg.profile.lastSym)
    (h : s.NoResetFor (dur s.frameLeft)) : run (dur s.frameLeft) s.beginSymbol = .next s.frameEnd.enterGap := by
  induction m generalizing s with
  | zero =>
    have hlast : s.sym = BitVec.ofNat 4 s.cfg.profile.lastSym := by simp [← hm]
    have hwave : s.frameLeft = s.slotWave := by
      rw [State.frameLeft_eq hm.le, show s.sym.toNat = s.cfg.profile.lastSym from hm, waveFrom_lastSym_succ, List.append_nil]
    rw [State.frameEnd, hwave, ← hlast, run_slot (hwave ▸ h), State.spaceTick_of_frameEnd (s.sent s.slotWave) le_rfl hm.ge]
    rfl
  | succ m ih =>
    have hc : s.sym.toNat < s.cfg.profile.lastSym := by omega
    have hm' : s.nextSlot.sym.toNat + m = s.cfg.profile.lastSym := by
      rw [← hm, Nat.add_comm m, ← Nat.add_assoc]
      exact congrArg (· + m) (s.cfg.toNat_sym_succ hc)
    have hleft : s.frameLeft = s.slotWave ++ s.nextSlot.frameLeft := by
      rw [State.frameLeft_eq hc.le, State.frameLeft_nextSlot hc]
    have hend : s.nextSlot.frameEnd = s.frameEnd := by
      rw [State.frameEnd, State.frameEnd, hleft]
      simp [State.nextSlot, State.sent, pushWave_append]
    rw [hleft, dur_append] at h ⊢
    obtain ⟨hslot, hrest⟩ := (State.noResetFor_add _ _ s).mp h
    rw [run_add (run_slot_of_lt hc hslot), ih hm' hrest, hend]

/-- In slot 0 the whole frame is left. -/
theorem State.frameLeft_of_sym_zero {s : State} (hsym : s.sym = 0#4) :
    s.frameLeft = waveFrame s.cfg.profile s.dev s.cmd := by
  rw [State.frameLeft, hsym]
  exact waveFrom_zero _ _ _

/-- From the first tick of slot 0: the frame, the gap, and `IDLE`. -/
theorem run_frame {s : State} (hsym : s.sym = 0#4)
    (h : s.NoResetFor (dur (waveFrame s.cfg.profile s.dev s.cmd) + s.cfg.gapUs)) :
    run (dur (waveFrame s.cfg.profile s.dev s.cmd) + s.cfg.gapUs) s.beginSymbol = .next { s with
      phase := .idle, sym := BitVec.ofNat 4 s.cfg.profile.lastSym, pcnt := 0#7, tcnt := 0, pin := .low
      script := s.script.drop (dur (waveFrame s.cfg.profile s.dev s.cmd) + s.cfg.gapUs)
      pinLog := pushWave (waveFrame s.cfg.profile s.dev s.cmd ++ [⟨.low, s.cfg.gapUs⟩]) s.pinLog } := by
  rw [← State.frameLeft_of_sym_zero hsym] at h ⊢
  obtain ⟨hframe, hgap⟩ := (State.noResetFor_add _ _ s).mp h
  rw [run_add (run_frameLeft (m := s.cfg.profile.lastSym) (by simp [hsym]) hframe)]
  refine (run_enterGap (s := s.frameEnd) hgap).trans ?_
  simp [State.frameEnd, State.sent, State.hold, State.elapse, State.enterIdle, pushWave_append]

/-! ## An accepted request (43_transmit.md R182) -/

/-- The registers that an accepted request writes before its first symbol begins (43_transmit.md R172). -/
def State.latch (d c : Byte) (s : State) : State := { s.clearErr with dev := d, cmd := c, sym := 0#4 }

/-- The tick in which a request is transferred and not refused. -/
theorem step_of_accepted {s : State} {p : Ports} {rest : List HostAction} (hi : s.phase = .idle)
    (hs : s.script = .ports p :: rest) (hr : p.rst = false) (hv : p.reqValid = true)
    (hacc : ¬(s.cfg.rangePolicy = .reject ∧ outOfRange s.cfg.profile p.reqDevice p.reqCommand = true)) :
    step s = .next ((s.withHistory rest (pushLevel s.pin 1 s.pinLog)).latch p.reqDevice p.reqCommand).beginSymbol := by
  obtain ⟨hn, hp⟩ := State.ports_tick hs
  rw [step_of_transfer hn (hp ▸ hr) hi (hp ▸ hv), hp, State.consume_ports hs]
  exact congrArg Host.Outcome.next (State.transfer_accepted (s := s.withHistory rest (pushLevel s.pin 1 s.pinLog)) hacc)

/-- A request that is accepted sends its frame from the next tick on, in every profile. -/
theorem run_accepted {s : State} {p : Ports} {rest : List HostAction} (hi : s.phase = .idle)
    (hs : s.script = .ports p :: rest) (hr : p.rst = false) (hv : p.reqValid = true)
    (hacc : ¬(s.cfg.rangePolicy = .reject ∧ outOfRange s.cfg.profile p.reqDevice p.reqCommand = true)) {n : Nat}
    (hn : dur (waveFrame s.cfg.profile p.reqDevice p.reqCommand) + s.cfg.gapUs = n)
    (h : ∀ a ∈ rest.take n, a.leavesResetLow = true) :
    run (1 + n) s = .next
      { phase := .idle, sym := BitVec.ofNat 4 s.cfg.profile.lastSym, pcnt := 0#7, tcnt := 0
        cmd := p.reqCommand, dev := p.reqDevice, err := false, pin := .low, cfg := s.cfg, script := rest.drop n
        pinLog := pushWave
          (⟨s.pin, 1⟩ :: (waveFrame s.cfg.profile p.reqDevice p.reqCommand ++ [⟨.low, s.cfg.gapUs⟩])) s.pinLog } := by
  subst hn
  rw [Nat.add_comm 1, run_succ (step_of_accepted hi hs hr hv hacc)]
  exact run_frame (s := (s.withHistory rest (pushLevel s.pin 1 s.pinLog)).latch p.reqDevice p.reqCommand) rfl h

/-- `T_FRAME(k)` in `SIRC12` (42_frame.md R152). -/
theorem dur_waveFrame_sirc12 (d c : Byte) : dur (waveFrame sirc12 d c) = 17400 + 600 * ones sirc12 d c :=
  (frameDurationAndCounts d c).1

/-- Settles O59: the frame of `SIRC12`, whose last slot is 12. -/
theorem acceptedRequestSendsItsFrame : Obligations.AcceptedRequestSendsItsFrame := by
  intro s p rest hprof hi hs hr hv hacc n h
  have hn : dur (waveFrame s.cfg.profile p.reqDevice p.reqCommand) + s.cfg.gapUs = n := by rw [hprof, dur_waveFrame_sirc12]
  have hrun := run_accepted hi hs hr hv (not_refused_sirc12 hprof hacc) hn h
  rwa [hprof] at hrun

end Sys2Proof.Machine
end

section
/-!
SUPPORT. How long the block is busy (spec/43_transmit.md R178): a count of the ticks left, which every busy tick lowers by one.
-/

namespace Sys2Proof.Machine

/-! ## The ticks left -/

/-- The ticks from the end of the slot in progress to `IDLE`. -/
def State.ticksAfterSlot (s : State) : Nat :=
  dur (waveFrom s.cfg.profile s.dev s.cmd (s.sym.toNat + 1)) + s.cfg.gapUs

/-- The ticks until the block is in `IDLE`, if no reset comes. -/
def State.ticksLeft (s : State) : Nat :=
  match s.phase with
  | .idle => 0
  | .high => s.tcnt + s.cfg.profile.tLow.toNat + s.cfg.profile.tCycle * (s.pcnt.toNat - 1)
      + s.cfg.profile.tSpace.toNat + s.ticksAfterSlot
  | .low => s.tcnt + s.cfg.profile.tCycle * (s.pcnt.toNat - 1) + s.cfg.profile.tSpace.toNat + s.ticksAfterSlot
  | .space => s.tcnt + s.ticksAfterSlot
  | .gap => s.tcnt

/-- In the first tick of a slot the rest of the frame and the gap are left. -/
theorem State.ticksLeft_beginSymbol {s : State} (hsym : s.sym.toNat ≤ s.cfg.profile.lastSym) :
    s.beginSymbol.ticksLeft = dur s.frameLeft + s.cfg.gapUs := by
  obtain ⟨k, hk⟩ := Nat.exists_eq_add_of_le (one_le_pulses s.cfg.valid s.sym s.cmd s.dev)
  rw [State.beginSymbol_eq, State.frameLeft_eq hsym, dur_append, State.slotWave, dur_waveSym, hk, Nat.mul_add]
  simp only [State.ticksLeft, State.ticksAfterSlot, hk, Profile.tCycle, Nat.add_sub_cancel_left]
  omega

/-! ## Every busy tick is one tick fewer -/

/-- What the invariants of 10_state.md R40 say of a state that sends a frame of `SIRC12`. -/
structure State.Sending (s : State) : Prop where
  profile : s.cfg.profile = sirc12
  sym : s.sym.toNat ≤ s.cfg.profile.lastSym
  phaseInv : s.PhaseInv

theorem PhaseMove.sending {s t : State} (h : PhaseMove s t) (hs : s.Sending) : t.Sending := by
  obtain ⟨hprof, hsym, hphase⟩ := hs
  obtain ⟨hcfg, -⟩ := h.keeps
  exact ⟨hcfg ▸ hprof, h.sym_le hsym, h.phaseInv hprof hsym hphase⟩

/-- When the last slot is over, the gap is left. -/
theorem State.ticksAfterSlot_of_last {s : State} (hs : s.Sending) (hc : s.cfg.profile.lastSym ≤ s.sym.toNat) :
    s.ticksAfterSlot = s.cfg.gapUs := by
  rw [State.ticksAfterSlot, Nat.le_antisymm hs.sym hc, waveFrom_lastSym_succ, dur_nil, Nat.zero_add]

/-- A tick that counts down is one tick fewer. -/
theorem State.ticksLeft_countDown {s : State} (hb : s.phase ≠ .idle) (ht : 1 < s.tcnt) :
    s.ticksLeft = s.countDown.ticksLeft + 1 := by
  cases hp : s.phase with
  | idle => exact absurd hp hb
  | high => simp [State.ticksLeft, State.ticksAfterSlot, hp]; omega
  | low => simp [State.ticksLeft, State.ticksAfterSlot, hp]; omega
  | space => simp [State.ticksLeft, State.ticksAfterSlot, hp]; omega
  | gap => simp [State.ticksLeft, hp]; omega

/-- In the last tick of a segment `TCNT` is 1. -/
theorem State.PhaseInv.tcnt_of_last {s : State} (h : s.PhaseInv) (hb : s.phase ≠ .idle) (ht : s.tcnt ≤ 1) : s.tcnt = 1 := by
  refine Nat.le_antisymm ht ?_
  obtain ⟨-, hhigh, hlow, hspace, hgap⟩ := h
  cases hp : s.phase with
  | idle => exact absurd hp hb
  | high => obtain ⟨-, hpos, -⟩ := hhigh hp; exact hpos
  | low => obtain ⟨-, hpos, -⟩ := hlow hp; exact hpos
  | space => obtain ⟨-, hpos, -⟩ := hspace hp; exact hpos
  | gap => obtain ⟨-, hpos, -⟩ := hgap hp; exact hpos

/-- Each tick of a busy phase is one tick fewer. -/
theorem PhaseMove.ticksLeft {s t : State} (h : PhaseMove s t) (hb : s.phase ≠ .idle) (hs : s.Sending) :
    s.ticksLeft = t.ticksLeft + 1 := by
  have hlast := hs.phaseInv.tcnt_of_last hb
  cases h with
  | idle hp => exact absurd hp hb
  | count _ ht => exact State.ticksLeft_countDown hb ht
  | highEnds hp ht =>
    simp [State.ticksLeft, State.ticksAfterSlot, hp, hlast ht]
    omega
  | cycleEnds hp ht hc =>
    obtain ⟨k, hk⟩ := Nat.exists_eq_add_of_le hc
    have hsub : (s.pcnt - 1#7).toNat = k + 1 := by bv_omega
    simp [State.ticksLeft, State.ticksAfterSlot, hp, hlast ht, hk, hsub, Profile.tCycle, Nat.mul_add]
    omega
  | burstEnds hp ht hc =>
    have hzero : s.pcnt.toNat - 1 = 0 := Nat.sub_eq_zero_of_le hc
    simp [State.ticksLeft, State.ticksAfterSlot, hp, hlast ht, hzero]
    omega
  | symbolEnds hp ht hc =>
    have hnext : State.ticksLeft (State.beginSymbol { s with sym := s.sym + 1#4 }) = s.ticksAfterSlot := by
      have hsucc := s.cfg.toNat_sym_succ hc
      rw [State.ticksLeft_beginSymbol (hsucc.trans_le hc), State.frameLeft, hsucc, State.ticksAfterSlot]
    rw [State.beginSymbol_eq] at hnext
    have hnow : s.ticksLeft = 1 + s.ticksAfterSlot := by simp only [State.ticksLeft, hp, hlast ht]
    rw [hnow, Nat.add_comm]
    exact congrArg (· + 1) hnext.symm
  | frameEnds hp ht hc hg =>
    simp [State.ticksLeft, hp, hlast ht, State.ticksAfterSlot_of_last hs hc, Nat.add_comm]
  | frameEndsWithoutGap hp ht hc hg =>
    simp [State.ticksLeft, hp, hlast ht, State.ticksAfterSlot_of_last hs hc, hg]
  | gapEnds hp ht => simp [State.ticksLeft, hp, hlast ht]

/-! ## `ready` is 0 while ticks are left -/

/-- A state with ticks left is busy. -/
theorem State.phase_of_ticksLeft {s : State} (h : s.ticksLeft ≠ 0) : s.phase ≠ .idle :=
  fun hi => h (by simp only [State.ticksLeft, hi])

/-- After `j` ticks without reset `j` fewer are left. -/
theorem run_ticksLeft {j : Nat} {s : State} (hs : s.Sending) (hj : j ≤ s.ticksLeft) (h : s.NoResetFor j) :
    ∃ t, run j s = .next t ∧ s.ticksLeft = t.ticksLeft + j := by
  induction j generalizing s with
  | zero => exact ⟨s, rfl, rfl⟩
  | succ j ih =>
    rw [Nat.add_comm, State.noResetFor_add] at h
    obtain ⟨hfirst, hrest⟩ := h
    have hb : s.phase ≠ .idle := State.phase_of_ticksLeft (by omega)
    have hmove := (s.hold 1).phaseTick_move
    have hhold : (s.hold 1).Sending := ⟨hs.profile, hs.sym, hs.phaseInv⟩
    have hleft : s.ticksLeft = (s.hold 1).phaseTick.ticksLeft + 1 := hmove.ticksLeft hb hhold
    obtain ⟨-, -, -, -, hscript⟩ := hmove.keeps
    have hrest' : (s.hold 1).phaseTick.NoResetFor j := by rwa [State.NoResetFor, hscript]
    obtain ⟨t, hrun, ht⟩ := ih (hmove.sending hhold) (by omega) hrest'
    exact ⟨t, (run_succ (step_of_busy hb hfirst) j).trans hrun, by omega⟩

/-- The first tick of a slot of the frame is in a state that sends it. -/
theorem State.beginSymbol_sending {s : State} (hprof : s.cfg.profile = sirc12) (hsym : s.sym.toNat ≤ s.cfg.profile.lastSym) :
    s.beginSymbol.Sending := by
  obtain ⟨-, -, -, hHigh, -⟩ := s.cfg.profile.valid_iff.mp s.cfg.valid
  rw [State.beginSymbol_eq]
  refine ⟨hprof, hsym, (State.phaseInv_of_high rfl).mpr ⟨rfl, hHigh, le_rfl, one_le_pulses s.cfg.valid _ _ _, ?_⟩⟩
  simpa [hprof] using pulses_sirc12_le s.sym s.cmd s.dev

/-- From the first tick of slot 0 the block is busy until the gap is over. -/
theorem busy_during_frame {s : State} (hprof : s.cfg.profile = sirc12) (hsym : s.sym = 0#4) {n : Nat}
    (hn : dur (waveFrame s.cfg.profile s.dev s.cmd) + s.cfg.gapUs = n) (h : s.NoResetFor n) {i : Nat} (hi : i < n) :
    ∃ t, run i s.beginSymbol = .next t ∧ t.phase ≠ .idle := by
  have hslot : s.sym.toNat ≤ s.cfg.profile.lastSym := hsym ▸ Nat.zero_le _
  have hleft : s.beginSymbol.ticksLeft = n := by
    rw [State.ticksLeft_beginSymbol hslot, State.frameLeft_of_sym_zero hsym, hn]
  obtain ⟨k, rfl⟩ := Nat.exists_eq_add_of_le hi.le
  obtain ⟨hquiet, -⟩ := (State.noResetFor_add i k s).mp h
  have hquiet' : s.beginSymbol.NoResetFor i := by rwa [State.NoResetFor, State.beginSymbol_script]
  obtain ⟨t, hrun, ht⟩ := run_ticksLeft (State.beginSymbol_sending hprof hslot) (by omega) hquiet'
  exact ⟨t, hrun, State.phase_of_ticksLeft (by omega)⟩

/-- Settles O60: the block is busy after the transfer until the frame and the gap are over, and then in `IDLE`. -/
theorem readyIsLowForTheFrameAndTheGap : Obligations.ReadyIsLowForTheFrameAndTheGap := by
  intro s p rest hprof hi hs hr hv hacc n h
  refine ⟨fun j hj hjn => ?_, _, acceptedRequestSendsItsFrame s p rest hprof hi hs hr hv hacc h, rfl⟩
  obtain ⟨i, rfl⟩ := Nat.exists_eq_add_of_le' hj
  have hn : dur (waveFrame s.cfg.profile p.reqDevice p.reqCommand) + s.cfg.gapUs = n := by rw [hprof, dur_waveFrame_sirc12]
  have hstep := step_of_accepted hi hs hr hv (not_refused_sirc12 hprof hacc)
  obtain ⟨t, hrun, ht⟩ := busy_during_frame
    (s := (s.withHistory rest (pushLevel s.pin 1 s.pinLog)).latch p.reqDevice p.reqCommand) hprof rfl hn h hjn
  exact ⟨t, (run_succ hstep i).trans hrun, by simpa [State.ready, State.readyFlag] using ht⟩

end Sys2Proof.Machine
end

section
/-!
SUPPORT. The one exception, `OutOfRange` (spec/60_exceptions.md R201, R210): what each kind of step does to `ERR`.
-/

namespace Sys2Proof.Machine

/-- A request is transferred in a tick of `IDLE` without reset in which it is presented (43_transmit.md R171). -/
theorem State.transfers_iff (s : State) :
    s.transfers = true ↔ s.portsNow.rst = false ∧ s.phase = .idle ∧ s.portsNow.reqValid = true := by
  simp only [State.transfers, State.ready, State.readyFlag, Bool.and_eq_true, Bool.not_eq_true', beq_iff_eq]
  tauto

/-- After a transfer `ERR` tells whether the request was refused, whatever `ERR` was before. -/
theorem State.transfer_err_iff (d c : Byte) (s : State) :
    (s.transfer d c).err = true ↔ s.cfg.rangePolicy = .reject ∧ outOfRange s.cfg.profile d c = true := by
  by_cases h : s.cfg.rangePolicy = .reject ∧ outOfRange s.cfg.profile d c = true
  · simp [State.transfer_refused h.1 h.2, h]
  · simp [State.transfer_accepted h, h]

/-- A directly called operation raises nothing and clears nothing. -/
theorem step_call_err {s t : State} (hf : s.nextIsTick = false)
    (h : ∃ i, decode s.fetch = .ok i ∧ exec i s.consume = .next t) : t.err = s.err := by
  rcases step_call_cases hf h with ⟨-, rfl⟩ | hc
  · simp
  · simpa using hc.err

/-- Settles O36, by the four kinds of step: reset, transfer, the phase in progress, direct call. -/
theorem errorFlagTellsTheLastTransfer : Obligations.ErrorFlagTellsTheLastTransfer := by
  intro s t h
  rw [← outOfRange_iff, State.transfers_iff, ← Bool.not_eq_true s.transfers, State.transfers_iff]
  rcases step_cases h with ⟨-, hr, rfl⟩ | ⟨-, hr, hi, hv, rfl⟩ | ⟨-, hr, hp, rfl⟩ | ⟨-, hf, hcall⟩
  · simp [hr]
  · have herr := (s.consume.elapse 1).transfer_err_iff s.portsNow.reqDevice s.portsNow.reqCommand
    exact ⟨by simp [hr], fun _ => by simpa using herr, fun _ hn => absurd ⟨hr, hi, hv⟩ hn⟩
  · have hkeep : (s.consume.elapse 1).phaseTick.err = s.err := by
      obtain ⟨-, -, -, herr, -⟩ := (s.consume.elapse 1).phaseTick_move.keeps
      simpa using herr
    refine ⟨by simp [hr], fun ⟨_, hi, hv⟩ => ?_, fun _ _ => hkeep⟩
    simp [hi, hv] at hp
  · have hquiet := portsNow_of_call hf
    exact ⟨by simp [hquiet, Ports.quiet], fun ⟨_, _, hv⟩ => by simp [hquiet, Ports.quiet] at hv,
      fun _ _ => step_call_err hf hcall⟩

end Sys2Proof.Machine
end

section
/-!
SUPPORT. The state at power-on (spec/70_reset_and_hazards.md R231, R234).
-/

namespace Sys2Proof.Machine

/-- In `IDLE` the block is ready; the other two ports show the pin and the flag (10_state.md R36, 43_transmit.md R181). -/
theorem State.outputs_of_idle {s : State} (hi : s.phase = .idle) : s.outputs = ⟨s.pin, true, s.err⟩ := by
  simp [State.outputs, State.irOut, State.ready, State.readyFlag, State.errOut, hi]

/-- Settles O1: the registers are those of `State.reset`, and it is a state of `IDLE`. -/
theorem powerOnStateIsIdleQuietAndReady : Obligations.PowerOnStateIsIdleQuietAndReady :=
  ⟨rfl, rfl, rfl, rfl, rfl, rfl, rfl, rfl, State.outputs_of_idle rfl⟩

end Sys2Proof.Machine
end
